-- ==== Sys2Proof/Word.lean ====
section
/-! DEFINITION. Word.lean: the widths of the machine, 00_scope.md R7 (XLEN = FLEN = 64, input word 32 bits). -/
namespace Sys2Proof

/-- One byte of memory (10_state.md R34). -/
abbrev Byte := BitVec 8

/-- A 64-bit register, pc or address (00_scope.md R7). -/
abbrev Word := BitVec 64

/-- A 32-bit instruction word, stored immediate or single-precision pattern (30_encoding.md R80, R91, 43_float.md R250). -/
abbrev Word32 := BitVec 32

/-- A 5-bit register index (10_state.md R21, R30). -/
abbrev Reg := BitVec 5

/-- A 3-bit compressed register field, naming one of x8 .. x15 (44_compressed.md R301). -/
abbrev CReg := BitVec 3

end Sys2Proof
end

