-- ==== Sys2Proof/Machine/Operands.lean ====
section
/-! DEFINITION. Operands.lean: the operand forms: register fields of compressed parcels, every immediate as its 32 bits
of storage, the width and sign primitives, and the single-precision boxing of a register.

00_scope.md R9, 30_encoding.md R91 and R93 to R97, 44_compressed.md R301 and R305 to R337, 10_state.md R31. -/
namespace Sys2Proof

/-- `sext_64(v)`: widen by copying the top bit (00_scope.md R9). -/
def sext64 {n : Nat} (v : BitVec n) : Word := v.signExtend 64

/-- `zext_64(v)`: widen with zeros (00_scope.md R9). -/
def zext64 {n : Nat} (v : BitVec n) : Word := v.setWidth 64

/-- `v[31:0]` of a 64-bit value. -/
def low32 (v : Word) : Word32 := v.setWidth 32

/-- The register a 3-bit compressed field names: index `8 + field` (44_compressed.md R301). -/
def xr' (r : CReg) : Reg := 8 + r.setWidth 5

/-! ### Immediates of full-width words as stored, 30_encoding.md R93 to R96 -/

/-- The I- and S-immediate: the 12-bit field sign-extended (R93, R94). -/
def immI (i : BitVec 12) : Word32 := i.signExtend 32
/-- The U-immediate: the 20-bit field stored in bits 31:12 (R95). -/
def immU (i : BitVec 20) : Word32 := i ++ 0#12
/-- The B-immediate from its bits 12:1, bit 0 a constant 0 (R96). -/
def immB (o : BitVec 12) : Word32 := (o ++ 0#1).signExtend 32
/-- The J-immediate from its bits 20:1, bit 0 a constant 0 (R96). -/
def immJ (o : BitVec 20) : Word32 := (o ++ 0#1).signExtend 32

/-! ### Immediates of compressed parcels as stored, 44_compressed.md -/

/-- C.ADDI4SPN: bits 9:2, a multiple of 4 in 0 .. 1020 (R305). -/
def cImm4spn (u : BitVec 8) : Word32 := (u ++ 0#2).setWidth 32
/-- C.LW, C.SW: bits 6:2, a multiple of 4 in 0 .. 124 (R306, R308). -/
def cOffW (u : BitVec 5) : Word32 := (u ++ 0#2).setWidth 32
/-- C.LD, C.SD: bits 7:3, a multiple of 8 in 0 .. 248 (R307, R309). -/
def cOffD (u : BitVec 5) : Word32 := (u ++ 0#3).setWidth 32
/-- C.ADDI, C.ADDIW, C.LI, C.ANDI: six bits sign-extended (R311 to R313, R318). -/
def cImm (i : BitVec 6) : Word32 := i.signExtend 32
/-- C.ADDI16SP: bits 9:4, a multiple of 16 in -512 .. 496 (R314). -/
def cImm16sp (i : BitVec 6) : Word32 := (i ++ 0#4).signExtend 32
/-- C.LUI: bits 17:12, sign-extended (R315). -/
def cImmLui (i : BitVec 6) : Word32 := (i ++ 0#12).signExtend 32
/-- C.J: bits 11:1, even, -2048 .. 2046 (R325). -/
def cOffJump (o : BitVec 11) : Word32 := (o ++ 0#1).signExtend 32
/-- C.BEQZ, C.BNEZ: bits 8:1, even, -256 .. 254 (R326, R327). -/
def cOffBranch (o : BitVec 8) : Word32 := (o ++ 0#1).signExtend 32
/-- C.LWSP, C.SWSP: bits 7:2, a multiple of 4 in 0 .. 252 (R329, R336). -/
def cOffWsp (u : BitVec 6) : Word32 := (u ++ 0#2).setWidth 32
/-- C.LDSP, C.SDSP: bits 8:3, a multiple of 8 in 0 .. 504 (R330, R337). -/
def cOffDsp (u : BitVec 6) : Word32 := (u ++ 0#3).setWidth 32

/-! ### NaN-boxing, 10_state.md R31, R32 -/

/-- The canonical quiet NaN (R32). -/
def canonicalNaN : Word32 := 0x7FC00000

/-- `NanBox(v)`: the 64-bit value with ones above `v` (R31). -/
def nanBox (v : Word32) : Word := 0xFFFFFFFF#32 ++ v

/-- `NanUnBox(w)`: the low 32 bits, unchecked (R31). -/
def nanUnBox (w : Word) : Word32 := low32 w

/-- The value `ReadS` gives for a register holding `w`: the low 32 bits of a valid box, else the canonical NaN (R32). -/
def unboxChecked (w : Word) : Word32 := if w.extractLsb 63 32 = 0xFFFFFFFF#32 then low32 w else canonicalNaN

end Sys2Proof
end

