-- ==== Sys2Proof/Machine/Flags.lean ====
section
/-! DEFINITION. Flags.lean: the hardware has no condition codes and no status flags (10_state.md R28). What other machines
keep in flags is computed here as values: the branch conditions of 40_base_integer.md R145 to R150, the
set-less-than results of R163, R164, R174, R175. -/
namespace Sys2Proof.Machine

/-- BEQ (R145). -/
def condEq (a b : Word) : Bool := a == b
/-- BNE (R146). -/
def condNe (a b : Word) : Bool := a != b
/-- BLT: `signed(a) < signed(b)` (R147). -/
def condLt (a b : Word) : Bool := decide (a.toInt < b.toInt)
/-- BGE: `signed(a) >= signed(b)` (R148). -/
def condGe (a b : Word) : Bool := decide (b.toInt ≤ a.toInt)
/-- BLTU: `unsigned(a) < unsigned(b)` (R149). -/
def condLtu (a b : Word) : Bool := decide (a.toNat < b.toNat)
/-- BGEU: `unsigned(a) >= unsigned(b)` (R150). -/
def condGeu (a b : Word) : Bool := decide (b.toNat ≤ a.toNat)

/-- A truth value as a register: 1 or 0 (R163). -/
def boolWord (b : Bool) : Word := if b then 1 else 0

end Sys2Proof.Machine
end

