-- ==== Sys2Proof/Machine/FloatArith.lean ====
section
/-! DEFINITION. FloatArith.lean: binary32 arithmetic, 43_float.md R250 to R252 and the functions of R264 to R283.

Every finite pattern is an integer number of units of 2^-149, so sums, products and quotients are exact integers or
fractions here and are rounded once, from the exact value (log 17). A magnitude to round is a fraction `n / d` of
units. -/
namespace Sys2Proof.Machine

/-- The five rounding modes (43_float.md R251). -/
inductive RoundingMode where
  | rne | rtz | rdn | rup | rmm
  deriving DecidableEq, Repr

/-- A rounding-mode code other than DYN (R251); 101, 110 and 111 resolve to nothing. -/
def staticRm (code : BitVec 3) : Option RoundingMode :=
  if code = 0b000 then some .rne
  else if code = 0b001 then some .rtz
  else if code = 0b010 then some .rdn
  else if code = 0b011 then some .rup
  else if code = 0b100 then some .rmm
  else none

/-- `Rm(code)` with the value of `FRM_DYN` for code 111 (R251). -/
def resolveRm (frmDyn code : BitVec 3) : Option RoundingMode :=
  if code = 0b111 then staticRm frmDyn else staticRm code

/-! ### The format, R250 -/

/-- The sign bit. -/
def fSign (a : Word32) : Bool := a.msb
/-- The biased exponent, bits 30:23. -/
def fExp (a : Word32) : Nat := (a.extractLsb 30 23).toNat
/-- The fraction, bits 22:0. -/
def fFrac (a : Word32) : Nat := (a.extractLsb 22 0).toNat

/-- `isNaN(a)` (R250). -/
def isNaN (a : Word32) : Bool := fExp a == 255 && fFrac a != 0
/-- A signaling NaN: bit 22 is 0 (R250). -/
def isSNaN (a : Word32) : Bool := isNaN a && !(a.getLsbD 22)
/-- An infinity (R250). -/
def isInf (a : Word32) : Bool := fExp a == 255 && fFrac a == 0
/-- A zero (R250). -/
def isZero (a : Word32) : Bool := fExp a == 0 && fFrac a == 0
/-- A subnormal (R250). -/
def isSubnormal (a : Word32) : Bool := fExp a == 0 && fFrac a != 0

/-- `neg(a)` (R252). -/
def fNeg (a : Word32) : Word32 := a ^^^ 0x80000000

/-- The magnitude of a finite pattern in units of 2^-149; for an infinity, a number above every finite one (R250). -/
def fUnits (a : Word32) : Nat := if fExp a = 0 then fFrac a else (2 ^ 23 + fFrac a) * 2 ^ (fExp a - 1)

/-- `value(a)` in units of 2^-149, a signed integer (R250). -/
def fValue (a : Word32) : Int := if fSign a then -(fUnits a : Int) else fUnits a

/-- A pattern from its sign and its low 31 bits. -/
def fPack (neg : Bool) (bits : Nat) : Word32 := BitVec.ofBool neg ++ BitVec.ofNat 31 bits

/-- The infinity of a sign. -/
def fInf (neg : Bool) : Word32 := fPack neg 0x7F800000
/-- The zero of a sign. -/
def fZero (neg : Bool) : Word32 := fPack neg 0

/-! ### Rounding, R251, R252 -/

/-- Whether the magnitude `q + r/d` (with `r < d`) of sign `neg` rounds up to `q + 1` (R251). -/
def roundsUp (m : RoundingMode) (neg : Bool) (q r d : Nat) : Bool :=
  match m with
  | .rne => decide (d < 2 * r) || (2 * r == d && q % 2 == 1)
  | .rtz => false
  | .rdn => neg && r != 0
  | .rup => !neg && r != 0
  | .rmm => decide (d ≤ 2 * r)

/-- The magnitude `q + r/d` rounded to an integer. -/
def roundNat (m : RoundingMode) (neg : Bool) (q r d : Nat) : Nat := q + (roundsUp m neg q r d).toNat

/-- `RoundInt(r, m)` of the value with sign `neg` and magnitude `n / d` (R252). -/
def roundInt (m : RoundingMode) (neg : Bool) (n d : Nat) : Int :=
  let q := roundNat m neg (n / d) (n % d) d
  if neg then -(q : Int) else q

/-- The result of a sign and the low 31 bits a rounding gives, with the overflow rule of R252: 2^128 or more is an
infinity, or the largest finite value when the mode rounds toward zero from there. -/
def overflowPack (m : RoundingMode) (neg : Bool) (bits : Nat) : Word32 :=
  if bits < 0x7F800000 then fPack neg bits
  else match m with
    | .rne | .rmm => fInf neg
    | .rtz => fPack neg 0x7F7FFFFF
    | .rdn => if neg then fInf neg else fPack neg 0x7F7FFFFF
    | .rup => if neg then fPack neg 0x7F7FFFFF else fInf neg

/-- How many low bits of an integer magnitude lie below its 24 leading ones; 0 in the subnormal range. -/
def excessBits (q : Nat) : Nat := q.log2 - 23

/-- `RoundS(r, m)` of R252 for the value of sign `neg` and magnitude `n / d` units of 2^-149, `n` not 0: keep 24 bits (or
whole units below 2^-126), round, and let the carry run into the exponent. -/
def roundS (m : RoundingMode) (neg : Bool) (n d : Nat) : Word32 :=
  let t := excessBits (n / d)
  let d' := d * 2 ^ t
  overflowPack m neg (t * 2 ^ 23 + roundNat m neg (n / d') (n % d') d')

/-- An exact sum of `v / d` units: `RoundS`, or the zero of sign `zneg` when it is 0 (R252). -/
def roundSum (m : RoundingMode) (zneg : Bool) (v : Int) (d : Nat) : Word32 :=
  if v = 0 then fZero zneg else roundS m (decide (v < 0)) v.natAbs d

/-- The sign of an exact zero sum of addends with these signs: kept when equal, else minus in RDN only (R252). -/
def zeroSumSign (m : RoundingMode) (sa sb : Bool) : Bool := if sa = sb then sa else m = .rdn

/-! ### The IEEE 754 operations, R252 -/

/-- `fadd_s(a, b, m)`. -/
def fAdd (m : RoundingMode) (a b : Word32) : Word32 :=
  if isNaN a || isNaN b then canonicalNaN
  else if isInf a then (if isInf b && fSign a != fSign b then canonicalNaN else a)
  else if isInf b then b
  else roundSum m (zeroSumSign m (fSign a) (fSign b)) (fValue a + fValue b) 1

/-- `fsub_s(a, b, m) = fadd_s(a, neg(b), m)`. -/
def fSub (m : RoundingMode) (a b : Word32) : Word32 := fAdd m a (fNeg b)

/-- `fmul_s(a, b, m)`. -/
def fMul (m : RoundingMode) (a b : Word32) : Word32 :=
  let sg := fSign a != fSign b
  if isNaN a || isNaN b then canonicalNaN
  else if isInf a || isInf b then (if isZero a || isZero b then canonicalNaN else fInf sg)
  else if isZero a || isZero b then fZero sg
  else roundS m sg (fUnits a * fUnits b) (2 ^ 149)

/-- `fdiv_s(a, b, m)`. -/
def fDiv (m : RoundingMode) (a b : Word32) : Word32 :=
  let sg := fSign a != fSign b
  if isNaN a || isNaN b then canonicalNaN
  else if isInf a then (if isInf b then canonicalNaN else fInf sg)
  else if isInf b then fZero sg
  else if isZero b then (if isZero a then canonicalNaN else fInf sg)
  else if isZero a then fZero sg
  else roundS m sg (fUnits a * 2 ^ 149) (fUnits b)

/-- `fma_s(a, b, c, m)`: `a*b + c` computed exactly, in units of 2^-298, and rounded once. -/
def fMulAdd (m : RoundingMode) (a b c : Word32) : Word32 :=
  let sp := fSign a != fSign b
  if isNaN a || isNaN b || isNaN c then canonicalNaN
  else if isInf a || isInf b then
    if isZero a || isZero b || (isInf c && fSign c != sp) then canonicalNaN else fInf sp
  else if isInf c then c
  else roundSum m (zeroSumSign m sp (fSign c)) (fValue a * fValue b + fValue c * 2 ^ 149) (2 ^ 149)

/-- The integer square root of `n`, for `n < 4 ^ k`, bit by bit from bit `k - 1`, starting from `acc`. -/
def isqrtBits (n : Nat) : Nat → Nat → Nat
  | 0, acc => acc
  | k + 1, acc => isqrtBits n k (if (acc + 2 ^ k) ^ 2 ≤ n then acc + 2 ^ k else acc)

/-- How the root of `v` compares with `q + 1/2` of its unit `2 ^ t`, as a remainder over 4: 0 exact, 1 below the half,
3 above it. The root of an integer is never half-way. -/
def sqrtRem (v q t : Nat) : Nat :=
  if q ^ 2 * 4 ^ t = v then 0 else if 4 * v < (2 * q + 1) ^ 2 * 4 ^ t then 1 else 3

/-- `fsqrt_s(a, m)`. The root of `u` units is the root of the integer `u * 2^149`, in units. -/
def fSqrt (m : RoundingMode) (a : Word32) : Word32 :=
  if isNaN a then canonicalNaN
  else if isZero a then a
  else if fSign a then canonicalNaN
  else if isInf a then a
  else
    let v := fUnits a * 2 ^ 149
    let t := v.log2 / 2 - 23
    let q := isqrtBits (v / 4 ^ t) 24 0
    overflowPack m false (t * 2 ^ 23 + roundNat m false q (sqrtRem v q t) 4)

/-! ### Sign injection, minimum, maximum, comparison, classification -/

/-- FSGNJ.S: `{b[31], a[30:0]}` (R264). -/
def fSgnj (a b : Word32) : Word32 := BitVec.ofBool b.msb ++ a.extractLsb 30 0
/-- FSGNJN.S: `{~b[31], a[30:0]}` (R265). -/
def fSgnjn (a b : Word32) : Word32 := BitVec.ofBool (!b.msb) ++ a.extractLsb 30 0
/-- FSGNJX.S: `{a[31] ^ b[31], a[30:0]}` (R266). -/
def fSgnjx (a b : Word32) : Word32 := BitVec.ofBool (a.msb ^^ b.msb) ++ a.extractLsb 30 0

/-- FMIN.S (R267). -/
def fMin (a b : Word32) : Word32 :=
  if isNaN a && isNaN b then canonicalNaN
  else if isNaN a then b
  else if isNaN b then a
  else if isZero a && isZero b && fSign a != fSign b then 0x80000000
  else if fValue a < fValue b then a else b

/-- FMAX.S (R268). -/
def fMax (a b : Word32) : Word32 :=
  if isNaN a && isNaN b then canonicalNaN
  else if isNaN a then b
  else if isNaN b then a
  else if isZero a && isZero b && fSign a != fSign b then 0x00000000
  else if fValue b < fValue a then a else b

/-- FEQ.S (R272). -/
def fEq (a b : Word32) : Bool := !(isNaN a || isNaN b) && decide (fValue a = fValue b)
/-- FLT.S (R273). -/
def fLt (a b : Word32) : Bool := !(isNaN a || isNaN b) && decide (fValue a < fValue b)
/-- FLE.S (R274). -/
def fLe (a b : Word32) : Bool := !(isNaN a || isNaN b) && decide (fValue a ≤ fValue b)

/-- FCLASS.S: the one-hot mask of R275. -/
def fClass (a : Word32) : Word :=
  if isNaN a then (if isSNaN a then 1 <<< 8 else 1 <<< 9)
  else if isInf a then (if fSign a then 1 <<< 0 else 1 <<< 7)
  else if isZero a then (if fSign a then 1 <<< 3 else 1 <<< 4)
  else if isSubnormal a then (if fSign a then 1 <<< 2 else 1 <<< 5)
  else (if fSign a then 1 <<< 1 else 1 <<< 6)

/-! ### Conversions, R269 to R283 -/

/-- Single precision to an integer in `lo .. hi`: NaN and plus infinity give `hi`, minus infinity `lo`; else round to an
integer, then saturate (R269, R283). -/
def fToInt (m : RoundingMode) (lo hi : Int) (a : Word32) : Int :=
  if isNaN a then hi
  else if isInf a then (if fSign a then lo else hi)
  else max lo (min hi (roundInt m (fSign a) (fUnits a) (2 ^ 149)))

/-- An integer to single precision; zero gives +0 (R276 to R282). -/
def fOfInt (m : RoundingMode) (n : Int) : Word32 :=
  if n = 0 then 0x00000000 else roundS m (decide (n < 0)) (n.natAbs * 2 ^ 149) 1

end Sys2Proof.Machine
end

