-- ==== Sys2Proof/Variant.lean ====
section
/-! DEFINITION. Variant.lean: the output of the decoder block, 30_encoding.md R80, R91, R99.

`RISCVInst` is the closed union of R99 (109 instruction variants and 5 sentinels), each with the fields of its shape
(R91): immediates are 32 bits of storage, shift amounts 6 bits. `DecodeResult` is the bundle of output wires of R80. -/
namespace Sys2Proof

/-- The decoded variants (30_encoding.md R99) with the fields of their shapes (R91). -/
inductive RISCVInst where
  | lui (rd : Reg) (imm : Word32)
  | auipc (rd : Reg) (imm : Word32)
  | jal (rd : Reg) (imm : Word32)
  | jalr (rd rs1 : Reg) (imm : Word32)
  | b (rs1 rs2 : Reg) (imm : Word32) (funct3 : BitVec 3)
  | lb (rd rs1 : Reg) (imm : Word32)
  | lh (rd rs1 : Reg) (imm : Word32)
  | lw (rd rs1 : Reg) (imm : Word32)
  | ld (rd rs1 : Reg) (imm : Word32)
  | lbu (rd rs1 : Reg) (imm : Word32)
  | lhu (rd rs1 : Reg) (imm : Word32)
  | lwu (rd rs1 : Reg) (imm : Word32)
  | sb (rs1 rs2 : Reg) (imm : Word32)
  | sh (rs1 rs2 : Reg) (imm : Word32)
  | sw (rs1 rs2 : Reg) (imm : Word32)
  | sd (rs1 rs2 : Reg) (imm : Word32)
  | addi (rd rs1 : Reg) (imm : Word32)
  | slti (rd rs1 : Reg) (imm : Word32)
  | sltiu (rd rs1 : Reg) (imm : Word32)
  | xori (rd rs1 : Reg) (imm : Word32)
  | ori (rd rs1 : Reg) (imm : Word32)
  | andi (rd rs1 : Reg) (imm : Word32)
  | slli (rd rs1 : Reg) (shamt : BitVec 6)
  | srli (rd rs1 : Reg) (shamt : BitVec 6)
  | srai (rd rs1 : Reg) (shamt : BitVec 6)
  | add (rd rs1 rs2 : Reg)
  | sub (rd rs1 rs2 : Reg)
  | sll (rd rs1 rs2 : Reg)
  | slt (rd rs1 rs2 : Reg)
  | sltu (rd rs1 rs2 : Reg)
  | xor (rd rs1 rs2 : Reg)
  | srl (rd rs1 rs2 : Reg)
  | sra (rd rs1 rs2 : Reg)
  | or (rd rs1 rs2 : Reg)
  | and (rd rs1 rs2 : Reg)
  | addiw (rd rs1 : Reg) (imm : Word32)
  | slliw (rd rs1 : Reg) (shamt : BitVec 6)
  | srliw (rd rs1 : Reg) (shamt : BitVec 6)
  | sraiw (rd rs1 : Reg) (shamt : BitVec 6)
  | addw (rd rs1 rs2 : Reg)
  | subw (rd rs1 rs2 : Reg)
  | sllw (rd rs1 rs2 : Reg)
  | srlw (rd rs1 rs2 : Reg)
  | sraw (rd rs1 rs2 : Reg)
  | mul (rd rs1 rs2 : Reg)
  | mulh (rd rs1 rs2 : Reg)
  | mulhsu (rd rs1 rs2 : Reg)
  | mulhu (rd rs1 rs2 : Reg)
  | div (rd rs1 rs2 : Reg)
  | divu (rd rs1 rs2 : Reg)
  | rem (rd rs1 rs2 : Reg)
  | remu (rd rs1 rs2 : Reg)
  | mulw (rd rs1 rs2 : Reg)
  | divw (rd rs1 rs2 : Reg)
  | divuw (rd rs1 rs2 : Reg)
  | remw (rd rs1 rs2 : Reg)
  | remuw (rd rs1 rs2 : Reg)
  | lrW (rd rs1 : Reg)
  | scW (rd rs1 rs2 : Reg)
  | amoswapW (rd rs1 rs2 : Reg)
  | amoaddW (rd rs1 rs2 : Reg)
  | amoxorW (rd rs1 rs2 : Reg)
  | amoandW (rd rs1 rs2 : Reg)
  | amoorW (rd rs1 rs2 : Reg)
  | amominW (rd rs1 rs2 : Reg)
  | amomaxW (rd rs1 rs2 : Reg)
  | amominuW (rd rs1 rs2 : Reg)
  | amomaxuW (rd rs1 rs2 : Reg)
  | lrD (rd rs1 : Reg)
  | scD (rd rs1 rs2 : Reg)
  | amoswapD (rd rs1 rs2 : Reg)
  | amoaddD (rd rs1 rs2 : Reg)
  | amoxorD (rd rs1 rs2 : Reg)
  | amoandD (rd rs1 rs2 : Reg)
  | amoorD (rd rs1 rs2 : Reg)
  | amominD (rd rs1 rs2 : Reg)
  | amomaxD (rd rs1 rs2 : Reg)
  | amominuD (rd rs1 rs2 : Reg)
  | amomaxuD (rd rs1 rs2 : Reg)
  | flw (rd rs1 : Reg) (imm : Word32)
  | fsw (rs1 rs2 : Reg) (imm : Word32)
  | fmaddS (rd rs1 rs2 rs3 : Reg) (rm : BitVec 3)
  | fmsubS (rd rs1 rs2 rs3 : Reg) (rm : BitVec 3)
  | fnmsubS (rd rs1 rs2 rs3 : Reg) (rm : BitVec 3)
  | fnmaddS (rd rs1 rs2 rs3 : Reg) (rm : BitVec 3)
  | faddS (rd rs1 rs2 : Reg)
  | fsubS (rd rs1 rs2 : Reg)
  | fmulS (rd rs1 rs2 : Reg)
  | fdivS (rd rs1 rs2 : Reg)
  | fsqrtS (rd rs1 rs2 : Reg)
  | fsgnjS (rd rs1 rs2 : Reg)
  | fsgnjnS (rd rs1 rs2 : Reg)
  | fsgnjxS (rd rs1 rs2 : Reg)
  | fminS (rd rs1 rs2 : Reg)
  | fmaxS (rd rs1 rs2 : Reg)
  | fcvtWS (rd rs1 rs2 : Reg)
  | fcvtWuS (rd rs1 rs2 : Reg)
  | fmvXW (rd rs1 rs2 : Reg)
  | feqS (rd rs1 rs2 : Reg)
  | fltS (rd rs1 rs2 : Reg)
  | fleS (rd rs1 rs2 : Reg)
  | fclassS (rd rs1 rs2 : Reg)
  | fcvtSW (rd rs1 rs2 : Reg)
  | fcvtSWu (rd rs1 rs2 : Reg)
  | fmvWX (rd rs1 rs2 : Reg)
  | fcvtLS (rd rs1 rs2 : Reg)
  | fcvtLuS (rd rs1 rs2 : Reg)
  | fcvtSL (rd rs1 rs2 : Reg)
  | fcvtSLu (rd rs1 rs2 : Reg)
  /-- Sentinel: no table entry matched (R112, R351); carries the raw word (R108, R350). -/
  | invalid (inst : Word32)
  /-- Sentinel: a compressed entry matched with a reserved operand (R338, R352); carries the raw word (R108, R350). -/
  | reserved (inst : Word32)
  /-- Sentinel: the breakpoint, both widths (R353); carries the raw word (R108, R350). -/
  | ebreak (inst : Word32)
  /-- Sentinel: a compressed hint code point (R338, R354); carries the raw word (R108, R350). -/
  | hint (inst : Word32)
  /-- Sentinel: the parcel 0x0001 (R355); carries the raw word (R108, R350). -/
  | nop (inst : Word32)
  deriving DecidableEq, Repr

/-- The decoder's output (30_encoding.md R80): the variant, the word the scan worked on, the compressed flag, and the
index of the entry that matched (`none` is the spec's NONE). How the tags are spelled on wires is `TAG_ENCODING`, open
in the spec; an inductive type stands for it (log 21). -/
structure DecodeResult where
  inst : RISCVInst
  raw : Word32
  isRvc : Bool
  pattern : Option Nat
  deriving DecidableEq, Repr

end Sys2Proof
end

