-- ==== Sys2Proof/Syntax.lean ====
section
/-! DEFINITION. Syntax.lean: the instructions, one constructor per row of spec/opcode_table.json, in its order.

A term is a matched entry of the pattern table (30_encoding.md R104) together with the field values of the word, each
in the width the encoding gives it: a register field names a register (R83 to R86, R301), an immediate field holds the
bits of the immediate that the word carries (bit 0 of a branch or jump offset and the scaled-away low bits of a
compressed offset are not in it: R96, R305 to R337). The compressed constructors include the operand values whose
output is RESERVED or HINT (R338): those words match the entry too (log 9). -/
namespace Sys2Proof

/-- The instruction set: the 148 entries of the pattern table (30_encoding.md R104). -/
inductive Instr where
  -- Base integer (40_base_integer.md R141 to R189).
  /-- `lui`: table entry 0, rule R141. -/
  | lui (rd : Reg) (imm : BitVec 20)
  /-- `auipc`: table entry 1, rule R142. -/
  | auipc (rd : Reg) (imm : BitVec 20)
  /-- `jal`: table entry 2, rule R143. -/
  | jal (rd : Reg) (off : BitVec 20)
  /-- `jalr`: table entry 3, rule R144. -/
  | jalr (rd : Reg) (rs1 : Reg) (imm : BitVec 12)
  /-- `beq`: table entry 4, rule R145. -/
  | beq (rs1 : Reg) (rs2 : Reg) (off : BitVec 12)
  /-- `bne`: table entry 5, rule R146. -/
  | bne (rs1 : Reg) (rs2 : Reg) (off : BitVec 12)
  /-- `blt`: table entry 6, rule R147. -/
  | blt (rs1 : Reg) (rs2 : Reg) (off : BitVec 12)
  /-- `bge`: table entry 7, rule R148. -/
  | bge (rs1 : Reg) (rs2 : Reg) (off : BitVec 12)
  /-- `bltu`: table entry 8, rule R149. -/
  | bltu (rs1 : Reg) (rs2 : Reg) (off : BitVec 12)
  /-- `bgeu`: table entry 9, rule R150. -/
  | bgeu (rs1 : Reg) (rs2 : Reg) (off : BitVec 12)
  /-- `lb`: table entry 10, rule R151. -/
  | lb (rd : Reg) (rs1 : Reg) (imm : BitVec 12)
  /-- `lh`: table entry 11, rule R152. -/
  | lh (rd : Reg) (rs1 : Reg) (imm : BitVec 12)
  /-- `lw`: table entry 12, rule R153. -/
  | lw (rd : Reg) (rs1 : Reg) (imm : BitVec 12)
  /-- `ld`: table entry 13, rule R154. -/
  | ld (rd : Reg) (rs1 : Reg) (imm : BitVec 12)
  /-- `lbu`: table entry 14, rule R155. -/
  | lbu (rd : Reg) (rs1 : Reg) (imm : BitVec 12)
  /-- `lhu`: table entry 15, rule R156. -/
  | lhu (rd : Reg) (rs1 : Reg) (imm : BitVec 12)
  /-- `lwu`: table entry 16, rule R157. -/
  | lwu (rd : Reg) (rs1 : Reg) (imm : BitVec 12)
  /-- `sb`: table entry 17, rule R158. -/
  | sb (rs1 : Reg) (rs2 : Reg) (imm : BitVec 12)
  /-- `sh`: table entry 18, rule R159. -/
  | sh (rs1 : Reg) (rs2 : Reg) (imm : BitVec 12)
  /-- `sw`: table entry 19, rule R160. -/
  | sw (rs1 : Reg) (rs2 : Reg) (imm : BitVec 12)
  /-- `sd`: table entry 20, rule R161. -/
  | sd (rs1 : Reg) (rs2 : Reg) (imm : BitVec 12)
  /-- `addi`: table entry 21, rule R162. -/
  | addi (rd : Reg) (rs1 : Reg) (imm : BitVec 12)
  /-- `slti`: table entry 22, rule R163. -/
  | slti (rd : Reg) (rs1 : Reg) (imm : BitVec 12)
  /-- `sltiu`: table entry 23, rule R164. -/
  | sltiu (rd : Reg) (rs1 : Reg) (imm : BitVec 12)
  /-- `xori`: table entry 24, rule R165. -/
  | xori (rd : Reg) (rs1 : Reg) (imm : BitVec 12)
  /-- `ori`: table entry 25, rule R166. -/
  | ori (rd : Reg) (rs1 : Reg) (imm : BitVec 12)
  /-- `andi`: table entry 26, rule R167. -/
  | andi (rd : Reg) (rs1 : Reg) (imm : BitVec 12)
  /-- `slli`: table entry 27, rule R168. -/
  | slli (rd : Reg) (rs1 : Reg) (shamt : BitVec 6)
  /-- `srli`: table entry 28, rule R169. -/
  | srli (rd : Reg) (rs1 : Reg) (shamt : BitVec 6)
  /-- `srai`: table entry 29, rule R170. -/
  | srai (rd : Reg) (rs1 : Reg) (shamt : BitVec 6)
  /-- `add`: table entry 30, rule R171. -/
  | add (rd : Reg) (rs1 : Reg) (rs2 : Reg)
  /-- `sub`: table entry 31, rule R172. -/
  | sub (rd : Reg) (rs1 : Reg) (rs2 : Reg)
  /-- `sll`: table entry 32, rule R173. -/
  | sll (rd : Reg) (rs1 : Reg) (rs2 : Reg)
  /-- `slt`: table entry 33, rule R174. -/
  | slt (rd : Reg) (rs1 : Reg) (rs2 : Reg)
  /-- `sltu`: table entry 34, rule R175. -/
  | sltu (rd : Reg) (rs1 : Reg) (rs2 : Reg)
  /-- `xor`: table entry 35, rule R176. -/
  | xor (rd : Reg) (rs1 : Reg) (rs2 : Reg)
  /-- `srl`: table entry 36, rule R177. -/
  | srl (rd : Reg) (rs1 : Reg) (rs2 : Reg)
  /-- `sra`: table entry 37, rule R178. -/
  | sra (rd : Reg) (rs1 : Reg) (rs2 : Reg)
  /-- `or`: table entry 38, rule R179. -/
  | or (rd : Reg) (rs1 : Reg) (rs2 : Reg)
  /-- `and`: table entry 39, rule R180. -/
  | and (rd : Reg) (rs1 : Reg) (rs2 : Reg)
  /-- `addiw`: table entry 40, rule R181. -/
  | addiw (rd : Reg) (rs1 : Reg) (imm : BitVec 12)
  /-- `slliw`: table entry 41, rule R182. -/
  | slliw (rd : Reg) (rs1 : Reg) (shamt : BitVec 5)
  /-- `srliw`: table entry 42, rule R183. -/
  | srliw (rd : Reg) (rs1 : Reg) (shamt : BitVec 5)
  /-- `sraiw`: table entry 43, rule R184. -/
  | sraiw (rd : Reg) (rs1 : Reg) (shamt : BitVec 5)
  /-- `addw`: table entry 44, rule R185. -/
  | addw (rd : Reg) (rs1 : Reg) (rs2 : Reg)
  /-- `subw`: table entry 45, rule R186. -/
  | subw (rd : Reg) (rs1 : Reg) (rs2 : Reg)
  /-- `sllw`: table entry 46, rule R187. -/
  | sllw (rd : Reg) (rs1 : Reg) (rs2 : Reg)
  /-- `srlw`: table entry 47, rule R188. -/
  | srlw (rd : Reg) (rs1 : Reg) (rs2 : Reg)
  /-- `sraw`: table entry 48, rule R189. -/
  | sraw (rd : Reg) (rs1 : Reg) (rs2 : Reg)
  -- The full-width breakpoint (45_sentinels.md R353).
  /-- `ebreak`: table entry 49, rule R353. -/
  | ebreak
  -- Multiply and divide (41_muldiv.md R201 to R213).
  /-- `mul`: table entry 50, rule R201. -/
  | mul (rd : Reg) (rs1 : Reg) (rs2 : Reg)
  /-- `mulh`: table entry 51, rule R202. -/
  | mulh (rd : Reg) (rs1 : Reg) (rs2 : Reg)
  /-- `mulhsu`: table entry 52, rule R203. -/
  | mulhsu (rd : Reg) (rs1 : Reg) (rs2 : Reg)
  /-- `mulhu`: table entry 53, rule R204. -/
  | mulhu (rd : Reg) (rs1 : Reg) (rs2 : Reg)
  /-- `div`: table entry 54, rule R205. -/
  | div (rd : Reg) (rs1 : Reg) (rs2 : Reg)
  /-- `divu`: table entry 55, rule R206. -/
  | divu (rd : Reg) (rs1 : Reg) (rs2 : Reg)
  /-- `rem`: table entry 56, rule R207. -/
  | rem (rd : Reg) (rs1 : Reg) (rs2 : Reg)
  /-- `remu`: table entry 57, rule R208. -/
  | remu (rd : Reg) (rs1 : Reg) (rs2 : Reg)
  /-- `mulw`: table entry 58, rule R209. -/
  | mulw (rd : Reg) (rs1 : Reg) (rs2 : Reg)
  /-- `divw`: table entry 59, rule R210. -/
  | divw (rd : Reg) (rs1 : Reg) (rs2 : Reg)
  /-- `divuw`: table entry 60, rule R211. -/
  | divuw (rd : Reg) (rs1 : Reg) (rs2 : Reg)
  /-- `remw`: table entry 61, rule R212. -/
  | remw (rd : Reg) (rs1 : Reg) (rs2 : Reg)
  /-- `remuw`: table entry 62, rule R213. -/
  | remuw (rd : Reg) (rs1 : Reg) (rs2 : Reg)
  -- Atomics (42_atomics.md R222 to R243); `aqrl` is the pair aq, rl of bits 26:25, carried and ignored (R220).
  /-- `lr.w`: table entry 63, rule R222. -/
  | lrW (rd : Reg) (rs1 : Reg) (aqrl : BitVec 2)
  /-- `sc.w`: table entry 64, rule R223. -/
  | scW (rd : Reg) (rs1 : Reg) (rs2 : Reg) (aqrl : BitVec 2)
  /-- `amoswap.w`: table entry 65, rule R224. -/
  | amoswapW (rd : Reg) (rs1 : Reg) (rs2 : Reg) (aqrl : BitVec 2)
  /-- `amoadd.w`: table entry 66, rule R225. -/
  | amoaddW (rd : Reg) (rs1 : Reg) (rs2 : Reg) (aqrl : BitVec 2)
  /-- `amoxor.w`: table entry 67, rule R226. -/
  | amoxorW (rd : Reg) (rs1 : Reg) (rs2 : Reg) (aqrl : BitVec 2)
  /-- `amoand.w`: table entry 68, rule R227. -/
  | amoandW (rd : Reg) (rs1 : Reg) (rs2 : Reg) (aqrl : BitVec 2)
  /-- `amoor.w`: table entry 69, rule R228. -/
  | amoorW (rd : Reg) (rs1 : Reg) (rs2 : Reg) (aqrl : BitVec 2)
  /-- `amomin.w`: table entry 70, rule R229. -/
  | amominW (rd : Reg) (rs1 : Reg) (rs2 : Reg) (aqrl : BitVec 2)
  /-- `amomax.w`: table entry 71, rule R230. -/
  | amomaxW (rd : Reg) (rs1 : Reg) (rs2 : Reg) (aqrl : BitVec 2)
  /-- `amominu.w`: table entry 72, rule R231. -/
  | amominuW (rd : Reg) (rs1 : Reg) (rs2 : Reg) (aqrl : BitVec 2)
  /-- `amomaxu.w`: table entry 73, rule R232. -/
  | amomaxuW (rd : Reg) (rs1 : Reg) (rs2 : Reg) (aqrl : BitVec 2)
  /-- `lr.d`: table entry 74, rule R233. -/
  | lrD (rd : Reg) (rs1 : Reg) (aqrl : BitVec 2)
  /-- `sc.d`: table entry 75, rule R234. -/
  | scD (rd : Reg) (rs1 : Reg) (rs2 : Reg) (aqrl : BitVec 2)
  /-- `amoswap.d`: table entry 76, rule R235. -/
  | amoswapD (rd : Reg) (rs1 : Reg) (rs2 : Reg) (aqrl : BitVec 2)
  /-- `amoadd.d`: table entry 77, rule R236. -/
  | amoaddD (rd : Reg) (rs1 : Reg) (rs2 : Reg) (aqrl : BitVec 2)
  /-- `amoxor.d`: table entry 78, rule R237. -/
  | amoxorD (rd : Reg) (rs1 : Reg) (rs2 : Reg) (aqrl : BitVec 2)
  /-- `amoand.d`: table entry 79, rule R238. -/
  | amoandD (rd : Reg) (rs1 : Reg) (rs2 : Reg) (aqrl : BitVec 2)
  /-- `amoor.d`: table entry 80, rule R239. -/
  | amoorD (rd : Reg) (rs1 : Reg) (rs2 : Reg) (aqrl : BitVec 2)
  /-- `amomin.d`: table entry 81, rule R240. -/
  | amominD (rd : Reg) (rs1 : Reg) (rs2 : Reg) (aqrl : BitVec 2)
  /-- `amomax.d`: table entry 82, rule R241. -/
  | amomaxD (rd : Reg) (rs1 : Reg) (rs2 : Reg) (aqrl : BitVec 2)
  /-- `amominu.d`: table entry 83, rule R242. -/
  | amominuD (rd : Reg) (rs1 : Reg) (rs2 : Reg) (aqrl : BitVec 2)
  /-- `amomaxu.d`: table entry 84, rule R243. -/
  | amomaxuD (rd : Reg) (rs1 : Reg) (rs2 : Reg) (aqrl : BitVec 2)
  -- Single-precision float (43_float.md R253 to R282); `rm` is raw[14:12] (R251).
  /-- `flw`: table entry 85, rule R253. -/
  | flw (rd : Reg) (rs1 : Reg) (imm : BitVec 12)
  /-- `fsw`: table entry 86, rule R254. -/
  | fsw (rs1 : Reg) (rs2 : Reg) (imm : BitVec 12)
  /-- `fmadd.s`: table entry 87, rule R255. -/
  | fmaddS (rd : Reg) (rs1 : Reg) (rs2 : Reg) (rs3 : Reg) (rm : BitVec 3)
  /-- `fmsub.s`: table entry 88, rule R256. -/
  | fmsubS (rd : Reg) (rs1 : Reg) (rs2 : Reg) (rs3 : Reg) (rm : BitVec 3)
  /-- `fnmsub.s`: table entry 89, rule R257. -/
  | fnmsubS (rd : Reg) (rs1 : Reg) (rs2 : Reg) (rs3 : Reg) (rm : BitVec 3)
  /-- `fnmadd.s`: table entry 90, rule R258. -/
  | fnmaddS (rd : Reg) (rs1 : Reg) (rs2 : Reg) (rs3 : Reg) (rm : BitVec 3)
  /-- `fadd.s`: table entry 91, rule R259. -/
  | faddS (rd : Reg) (rs1 : Reg) (rs2 : Reg) (rm : BitVec 3)
  /-- `fsub.s`: table entry 92, rule R260. -/
  | fsubS (rd : Reg) (rs1 : Reg) (rs2 : Reg) (rm : BitVec 3)
  /-- `fmul.s`: table entry 93, rule R261. -/
  | fmulS (rd : Reg) (rs1 : Reg) (rs2 : Reg) (rm : BitVec 3)
  /-- `fdiv.s`: table entry 94, rule R262. -/
  | fdivS (rd : Reg) (rs1 : Reg) (rs2 : Reg) (rm : BitVec 3)
  /-- `fsqrt.s`: table entry 95, rule R263. -/
  | fsqrtS (rd : Reg) (rs1 : Reg) (rm : BitVec 3)
  /-- `fsgnj.s`: table entry 96, rule R264. -/
  | fsgnjS (rd : Reg) (rs1 : Reg) (rs2 : Reg)
  /-- `fsgnjn.s`: table entry 97, rule R265. -/
  | fsgnjnS (rd : Reg) (rs1 : Reg) (rs2 : Reg)
  /-- `fsgnjx.s`: table entry 98, rule R266. -/
  | fsgnjxS (rd : Reg) (rs1 : Reg) (rs2 : Reg)
  /-- `fmin.s`: table entry 99, rule R267. -/
  | fminS (rd : Reg) (rs1 : Reg) (rs2 : Reg)
  /-- `fmax.s`: table entry 100, rule R268. -/
  | fmaxS (rd : Reg) (rs1 : Reg) (rs2 : Reg)
  /-- `fcvt.w.s`: table entry 101, rule R269. -/
  | fcvtWS (rd : Reg) (rs1 : Reg) (rm : BitVec 3)
  /-- `fcvt.wu.s`: table entry 102, rule R270. -/
  | fcvtWuS (rd : Reg) (rs1 : Reg) (rm : BitVec 3)
  /-- `fmv.x.w`: table entry 103, rule R271. -/
  | fmvXW (rd : Reg) (rs1 : Reg)
  /-- `feq.s`: table entry 104, rule R272. -/
  | feqS (rd : Reg) (rs1 : Reg) (rs2 : Reg)
  /-- `flt.s`: table entry 105, rule R273. -/
  | fltS (rd : Reg) (rs1 : Reg) (rs2 : Reg)
  /-- `fle.s`: table entry 106, rule R274. -/
  | fleS (rd : Reg) (rs1 : Reg) (rs2 : Reg)
  /-- `fclass.s`: table entry 107, rule R275. -/
  | fclassS (rd : Reg) (rs1 : Reg)
  /-- `fcvt.s.w`: table entry 108, rule R276. -/
  | fcvtSW (rd : Reg) (rs1 : Reg) (rm : BitVec 3)
  /-- `fcvt.s.wu`: table entry 109, rule R277. -/
  | fcvtSWu (rd : Reg) (rs1 : Reg) (rm : BitVec 3)
  /-- `fmv.w.x`: table entry 110, rule R278. -/
  | fmvWX (rd : Reg) (rs1 : Reg)
  /-- `fcvt.l.s`: table entry 111, rule R279. -/
  | fcvtLS (rd : Reg) (rs1 : Reg) (rm : BitVec 3)
  /-- `fcvt.lu.s`: table entry 112, rule R280. -/
  | fcvtLuS (rd : Reg) (rs1 : Reg) (rm : BitVec 3)
  /-- `fcvt.s.l`: table entry 113, rule R281. -/
  | fcvtSL (rd : Reg) (rs1 : Reg) (rm : BitVec 3)
  /-- `fcvt.s.lu`: table entry 114, rule R282. -/
  | fcvtSLu (rd : Reg) (rs1 : Reg) (rm : BitVec 3)
  -- Compressed (44_compressed.md R305 to R337); fields are the unscaled bits of the parcel.
  /-- `c.addi4spn`: table entry 115, rule R305. -/
  | cAddi4spn (rd' : CReg) (nzuimm : BitVec 8)
  /-- `c.lw`: table entry 116, rule R306. -/
  | cLw (rd' : CReg) (rs1' : CReg) (uimm : BitVec 5)
  /-- `c.ld`: table entry 117, rule R307. -/
  | cLd (rd' : CReg) (rs1' : CReg) (uimm : BitVec 5)
  /-- `c.sw`: table entry 118, rule R308. -/
  | cSw (rs1' : CReg) (rs2' : CReg) (uimm : BitVec 5)
  /-- `c.sd`: table entry 119, rule R309. -/
  | cSd (rs1' : CReg) (rs2' : CReg) (uimm : BitVec 5)
  /-- `c.nop`: table entry 120, rule R310. -/
  | cNop
  /-- `c.addi`: table entry 121, rule R311. -/
  | cAddi (rd : Reg) (imm : BitVec 6)
  /-- `c.addiw`: table entry 122, rule R312. -/
  | cAddiw (rd : Reg) (imm : BitVec 6)
  /-- `c.li`: table entry 123, rule R313. -/
  | cLi (rd : Reg) (imm : BitVec 6)
  /-- `c.addi16sp`: table entry 124, rule R314. -/
  | cAddi16sp (imm : BitVec 6)
  /-- `c.lui`: table entry 125, rule R315. -/
  | cLui (rd : Reg) (imm : BitVec 6)
  /-- `c.srli`: table entry 126, rule R316. -/
  | cSrli (rd' : CReg) (shamt : BitVec 6)
  /-- `c.srai`: table entry 127, rule R317. -/
  | cSrai (rd' : CReg) (shamt : BitVec 6)
  /-- `c.andi`: table entry 128, rule R318. -/
  | cAndi (rd' : CReg) (imm : BitVec 6)
  /-- `c.sub`: table entry 129, rule R319. -/
  | cSub (rd' : CReg) (rs2' : CReg)
  /-- `c.xor`: table entry 130, rule R320. -/
  | cXor (rd' : CReg) (rs2' : CReg)
  /-- `c.or`: table entry 131, rule R321. -/
  | cOr (rd' : CReg) (rs2' : CReg)
  /-- `c.and`: table entry 132, rule R322. -/
  | cAnd (rd' : CReg) (rs2' : CReg)
  /-- `c.subw`: table entry 133, rule R323. -/
  | cSubw (rd' : CReg) (rs2' : CReg)
  /-- `c.addw`: table entry 134, rule R324. -/
  | cAddw (rd' : CReg) (rs2' : CReg)
  /-- `c.j`: table entry 135, rule R325. -/
  | cJ (off : BitVec 11)
  /-- `c.beqz`: table entry 136, rule R326. -/
  | cBeqz (rs1' : CReg) (off : BitVec 8)
  /-- `c.bnez`: table entry 137, rule R327. -/
  | cBnez (rs1' : CReg) (off : BitVec 8)
  /-- `c.slli`: table entry 138, rule R328. -/
  | cSlli (rd : Reg) (shamt : BitVec 6)
  /-- `c.lwsp`: table entry 139, rule R329. -/
  | cLwsp (rd : Reg) (uimm : BitVec 6)
  /-- `c.ldsp`: table entry 140, rule R330. -/
  | cLdsp (rd : Reg) (uimm : BitVec 6)
  /-- `c.jr`: table entry 141, rule R331. -/
  | cJr (rs1 : Reg)
  /-- `c.mv`: table entry 142, rule R332. -/
  | cMv (rd : Reg) (rs2 : Reg)
  /-- `c.ebreak`: table entry 143, rule R333. -/
  | cEbreak
  /-- `c.jalr`: table entry 144, rule R334. -/
  | cJalr (rs1 : Reg)
  /-- `c.add`: table entry 145, rule R335. -/
  | cAdd (rd : Reg) (rs2 : Reg)
  /-- `c.swsp`: table entry 146, rule R336. -/
  | cSwsp (rs2 : Reg) (uimm : BitVec 6)
  /-- `c.sdsp`: table entry 147, rule R337. -/
  | cSdsp (rs2 : Reg) (uimm : BitVec 6)
  deriving DecidableEq, Repr

end Sys2Proof
end

