-- ==== Sys2Proof/WellFormed.lean ====
section
/-! DEFINITION. WellFormed.lean: which terms of Instr are the reading of some word.

A term is well formed when its word is read as its own entry: where an earlier entry of the table takes the word
(the overlapping pairs of 30_encoding.md R106) the term stands for no word. Every field's range is its type. The operand
values that make a parcel RESERVED or HINT (44_compressed.md R338) are well formed: their words match the entry. -/
namespace Sys2Proof

/-- The checks: one for each entry that an earlier entry overlaps (30_encoding.md R106). -/
def WellFormed : Instr → Bool
  | .cAddi rd imm => !(rd == 0 && imm == 0)    -- 0x0001 is C.NOP (R311)
  | .cLui rd _ => rd != 2                      -- rd = 2 is C.ADDI16SP (R315)
  | .cMv _ rs2 => rs2 != 0                     -- rs2 = 0 is C.JR (R332)
  | .cJalr rs1 => rs1 != 0                     -- 0x9002 is C.EBREAK (R334)
  | .cAdd _ rs2 => rs2 != 0                    -- rs2 = 0 is C.JALR or C.EBREAK (R335)
  | _ => true

end Sys2Proof
end

