-- ==== Sys2Proof/Decode.lean ====
section
/-! DEFINITION. Decode.lean: the hardware block, 30_encoding.md: the bit-field extractors (R83 to R90), the
immediates (R93 to R97 and the scrambles of 44_compressed.md), the pattern table (R104), the first-match scan (R105)
and its output (R80); after it the encoder, from the formats of R92 and R98. -/
namespace Sys2Proof

/-! ### Bit-field extractors, R83 to R90 -/

/-- `RD(raw) = raw[11:7]` (R83). -/
def fRd (raw : Word32) : Reg := raw.extractLsb 11 7
/-- `RS1(raw) = raw[19:15]` (R84). -/
def fRs1 (raw : Word32) : Reg := raw.extractLsb 19 15
/-- `RS2(raw) = raw[24:20]` (R85). -/
def fRs2 (raw : Word32) : Reg := raw.extractLsb 24 20
/-- `RS3(raw) = raw[31:27]` (R86). -/
def fRs3 (raw : Word32) : Reg := raw.extractLsb 31 27
/-- `FUNCT3(raw) = raw[14:12]` (R87). -/
def fFunct3 (raw : Word32) : BitVec 3 := raw.extractLsb 14 12
/-- `FUNCT2(raw) = raw[26:25]` (R88); matched through the masks, carried by no variant. -/
def fFunct2 (raw : Word32) : BitVec 2 := raw.extractLsb 26 25
/-- `FUNCT7(raw) = raw[31:25]` (R89); matched through the masks, carried by no variant. -/
def fFunct7 (raw : Word32) : BitVec 7 := raw.extractLsb 31 25
/-- `RM(raw) = raw[14:12]` (R90). -/
def fRm (raw : Word32) : BitVec 3 := raw.extractLsb 14 12

/-! ### Immediate fields of full-width words, R93 to R97, and aq, rl -/

/-- The I-immediate field, raw[31:20] (R93). -/
def fImmI (raw : Word32) : BitVec 12 := raw.extractLsb 31 20
/-- The S-immediate field, raw[31:25] then raw[11:7] (R94). -/
def fImmS (raw : Word32) : BitVec 12 := raw.extractLsb 31 25 ++ raw.extractLsb 11 7
/-- The U-immediate field, raw[31:12] (R95). -/
def fImmU (raw : Word32) : BitVec 20 := raw.extractLsb 31 12
/-- Bits 12:1 of the B-immediate (R96). -/
def fImmB (raw : Word32) : BitVec 12 :=
  raw.extractLsb 31 31 ++ raw.extractLsb 7 7 ++ raw.extractLsb 30 25 ++ raw.extractLsb 11 8
/-- Bits 20:1 of the J-immediate (R96). -/
def fImmJ (raw : Word32) : BitVec 20 :=
  raw.extractLsb 31 31 ++ raw.extractLsb 19 12 ++ raw.extractLsb 20 20 ++ raw.extractLsb 30 21
/-- The 6-bit shift amount, raw[25:20] (R97). -/
def fShamt6 (raw : Word32) : BitVec 6 := raw.extractLsb 25 20
/-- The 5-bit shift amount, raw[24:20] (R97). -/
def fShamt5 (raw : Word32) : BitVec 5 := raw.extractLsb 24 20
/-- aq (bit 26) and rl (bit 25) of an atomic (42_atomics.md R220). -/
def fAqRl (raw : Word32) : BitVec 2 := raw.extractLsb 26 25

/-! ### Fields of compressed parcels, R98 and 44_compressed.md -/

/-- c[11:7], rd or rs1 of CR and CI (R98). -/
def cRd (c : Word32) : Reg := c.extractLsb 11 7
/-- c[6:2], rs2 of CR and CSS (R98). -/
def cRs2 (c : Word32) : Reg := c.extractLsb 6 2
/-- c[4:2], rd' of CIW and CL (R98, R301). -/
def cRd' (c : Word32) : CReg := c.extractLsb 4 2
/-- c[4:2], rs2' of CS and CA (R98, R301). -/
def cRs2' (c : Word32) : CReg := c.extractLsb 4 2
/-- c[9:7], rs1' of CL and CS, rd' of CA and CB (R98, R301). -/
def cRs1' (c : Word32) : CReg := c.extractLsb 9 7
/-- The 6-bit immediate or shift amount of CI and CB: c[12] then c[6:2] (R311, R316, R328). -/
def cImm6 (c : Word32) : BitVec 6 := c.extractLsb 12 12 ++ c.extractLsb 6 2
/-- Bits 9:2 of the C.ADDI4SPN immediate: c[10:7], c[12:11], c[5], c[6] (R305). -/
def cUimmCIW (c : Word32) : BitVec 8 :=
  c.extractLsb 10 7 ++ c.extractLsb 12 11 ++ c.extractLsb 5 5 ++ c.extractLsb 6 6
/-- Bits 6:2 of the C.LW and C.SW offset: c[5], c[12:10], c[6] (R306, R308). -/
def cUimmLW (c : Word32) : BitVec 5 := c.extractLsb 5 5 ++ c.extractLsb 12 10 ++ c.extractLsb 6 6
/-- Bits 7:3 of the C.LD and C.SD offset: c[6:5], c[12:10] (R307, R309). -/
def cUimmLD (c : Word32) : BitVec 5 := c.extractLsb 6 5 ++ c.extractLsb 12 10
/-- Bits 9:4 of the C.ADDI16SP immediate: c[12], c[4:3], c[5], c[2], c[6] (R314). -/
def cImm16spField (c : Word32) : BitVec 6 :=
  c.extractLsb 12 12 ++ c.extractLsb 4 3 ++ c.extractLsb 5 5 ++ c.extractLsb 2 2 ++ c.extractLsb 6 6
/-- Bits 11:1 of the C.J offset: c[12], c[8], c[10:9], c[6], c[7], c[2], c[11], c[5:3] (R325). -/
def cOffJ (c : Word32) : BitVec 11 :=
  c.extractLsb 12 12 ++ c.extractLsb 8 8 ++ c.extractLsb 10 9 ++ c.extractLsb 6 6 ++ c.extractLsb 7 7 ++
    c.extractLsb 2 2 ++ c.extractLsb 11 11 ++ c.extractLsb 5 3
/-- Bits 8:1 of the C.BEQZ and C.BNEZ offset: c[12], c[6:5], c[2], c[11:10], c[4:3] (R326, R327). -/
def cOffB (c : Word32) : BitVec 8 :=
  c.extractLsb 12 12 ++ c.extractLsb 6 5 ++ c.extractLsb 2 2 ++ c.extractLsb 11 10 ++ c.extractLsb 4 3
/-- Bits 7:2 of the C.LWSP offset: c[3:2], c[12], c[6:4] (R329). -/
def cUimmLWSP (c : Word32) : BitVec 6 := c.extractLsb 3 2 ++ c.extractLsb 12 12 ++ c.extractLsb 6 4
/-- Bits 8:3 of the C.LDSP offset: c[4:2], c[12], c[6:5] (R330). -/
def cUimmLDSP (c : Word32) : BitVec 6 := c.extractLsb 4 2 ++ c.extractLsb 12 12 ++ c.extractLsb 6 5
/-- Bits 7:2 of the C.SWSP offset: c[8:7], c[12:9] (R336). -/
def cUimmSWSP (c : Word32) : BitVec 6 := c.extractLsb 8 7 ++ c.extractLsb 12 9
/-- Bits 8:3 of the C.SDSP offset: c[9:7], c[12:10] (R337). -/
def cUimmSDSP (c : Word32) : BitVec 6 := c.extractLsb 9 7 ++ c.extractLsb 12 10

/-! ### The pattern table, R100 to R104 -/

/-- One entry (R100): its diagnostic name, its `type_mask`, its `eigen` and its decode function. -/
structure Entry where
  name : String
  mask : Word32
  eigen : Word32
  build : Word32 → Instr

/-- An entry matches a word when `(raw & type_mask) == eigen` (R101). -/
def Entry.hits (e : Entry) (raw : Word32) : Bool := (raw &&& e.mask) == e.eigen

/-- Entries 0 to 9 of 30_encoding.md R104: jumps and branches. -/
def tableJB : List Entry := [
  ⟨"LUI", 0x0000007F, 0x00000037, fun w => .lui (fRd w) (fImmU w)⟩,
  ⟨"AUIPC", 0x0000007F, 0x00000017, fun w => .auipc (fRd w) (fImmU w)⟩,
  ⟨"JAL", 0x0000007F, 0x0000006F, fun w => .jal (fRd w) (fImmJ w)⟩,
  ⟨"JALR", 0x0000707F, 0x00000067, fun w => .jalr (fRd w) (fRs1 w) (fImmI w)⟩,
  ⟨"BEQ", 0x0000707F, 0x00000063, fun w => .beq (fRs1 w) (fRs2 w) (fImmB w)⟩,
  ⟨"BNE", 0x0000707F, 0x00001063, fun w => .bne (fRs1 w) (fRs2 w) (fImmB w)⟩,
  ⟨"BLT", 0x0000707F, 0x00004063, fun w => .blt (fRs1 w) (fRs2 w) (fImmB w)⟩,
  ⟨"BGE", 0x0000707F, 0x00005063, fun w => .bge (fRs1 w) (fRs2 w) (fImmB w)⟩,
  ⟨"BLTU", 0x0000707F, 0x00006063, fun w => .bltu (fRs1 w) (fRs2 w) (fImmB w)⟩,
  ⟨"BGEU", 0x0000707F, 0x00007063, fun w => .bgeu (fRs1 w) (fRs2 w) (fImmB w)⟩]

/-- Entries 10 to 26 of 30_encoding.md R104: loads, stores, immediates. -/
def tableLS : List Entry := [
  ⟨"LB", 0x0000707F, 0x00000003, fun w => .lb (fRd w) (fRs1 w) (fImmI w)⟩,
  ⟨"LH", 0x0000707F, 0x00001003, fun w => .lh (fRd w) (fRs1 w) (fImmI w)⟩,
  ⟨"LW", 0x0000707F, 0x00002003, fun w => .lw (fRd w) (fRs1 w) (fImmI w)⟩,
  ⟨"LD", 0x0000707F, 0x00003003, fun w => .ld (fRd w) (fRs1 w) (fImmI w)⟩,
  ⟨"LBU", 0x0000707F, 0x00004003, fun w => .lbu (fRd w) (fRs1 w) (fImmI w)⟩,
  ⟨"LHU", 0x0000707F, 0x00005003, fun w => .lhu (fRd w) (fRs1 w) (fImmI w)⟩,
  ⟨"LWU", 0x0000707F, 0x00006003, fun w => .lwu (fRd w) (fRs1 w) (fImmI w)⟩,
  ⟨"SB", 0x0000707F, 0x00000023, fun w => .sb (fRs1 w) (fRs2 w) (fImmS w)⟩,
  ⟨"SH", 0x0000707F, 0x00001023, fun w => .sh (fRs1 w) (fRs2 w) (fImmS w)⟩,
  ⟨"SW", 0x0000707F, 0x00002023, fun w => .sw (fRs1 w) (fRs2 w) (fImmS w)⟩,
  ⟨"SD", 0x0000707F, 0x00003023, fun w => .sd (fRs1 w) (fRs2 w) (fImmS w)⟩,
  ⟨"ADDI", 0x0000707F, 0x00000013, fun w => .addi (fRd w) (fRs1 w) (fImmI w)⟩,
  ⟨"SLTI", 0x0000707F, 0x00002013, fun w => .slti (fRd w) (fRs1 w) (fImmI w)⟩,
  ⟨"SLTIU", 0x0000707F, 0x00003013, fun w => .sltiu (fRd w) (fRs1 w) (fImmI w)⟩,
  ⟨"XORI", 0x0000707F, 0x00004013, fun w => .xori (fRd w) (fRs1 w) (fImmI w)⟩,
  ⟨"ORI", 0x0000707F, 0x00006013, fun w => .ori (fRd w) (fRs1 w) (fImmI w)⟩,
  ⟨"ANDI", 0x0000707F, 0x00007013, fun w => .andi (fRd w) (fRs1 w) (fImmI w)⟩]

/-- Entries 27 to 49 of 30_encoding.md R104: shifts, register ALU, W forms, EBREAK. -/
def tableAlu : List Entry := [
  ⟨"SLLI", 0xFC00707F, 0x00001013, fun w => .slli (fRd w) (fRs1 w) (fShamt6 w)⟩,
  ⟨"SRLI", 0xFC00707F, 0x00005013, fun w => .srli (fRd w) (fRs1 w) (fShamt6 w)⟩,
  ⟨"SRAI", 0xFC00707F, 0x40005013, fun w => .srai (fRd w) (fRs1 w) (fShamt6 w)⟩,
  ⟨"ADD", 0xFE00707F, 0x00000033, fun w => .add (fRd w) (fRs1 w) (fRs2 w)⟩,
  ⟨"SUB", 0xFE00707F, 0x40000033, fun w => .sub (fRd w) (fRs1 w) (fRs2 w)⟩,
  ⟨"SLL", 0xFE00707F, 0x00001033, fun w => .sll (fRd w) (fRs1 w) (fRs2 w)⟩,
  ⟨"SLT", 0xFE00707F, 0x00002033, fun w => .slt (fRd w) (fRs1 w) (fRs2 w)⟩,
  ⟨"SLTU", 0xFE00707F, 0x00003033, fun w => .sltu (fRd w) (fRs1 w) (fRs2 w)⟩,
  ⟨"XOR", 0xFE00707F, 0x00004033, fun w => .xor (fRd w) (fRs1 w) (fRs2 w)⟩,
  ⟨"SRL", 0xFE00707F, 0x00005033, fun w => .srl (fRd w) (fRs1 w) (fRs2 w)⟩,
  ⟨"SRA", 0xFE00707F, 0x40005033, fun w => .sra (fRd w) (fRs1 w) (fRs2 w)⟩,
  ⟨"OR", 0xFE00707F, 0x00006033, fun w => .or (fRd w) (fRs1 w) (fRs2 w)⟩,
  ⟨"AND", 0xFE00707F, 0x00007033, fun w => .and (fRd w) (fRs1 w) (fRs2 w)⟩,
  ⟨"ADDIW", 0x0000707F, 0x0000001B, fun w => .addiw (fRd w) (fRs1 w) (fImmI w)⟩,
  ⟨"SLLIW", 0xFE00707F, 0x0000101B, fun w => .slliw (fRd w) (fRs1 w) (fShamt5 w)⟩,
  ⟨"SRLIW", 0xFE00707F, 0x0000501B, fun w => .srliw (fRd w) (fRs1 w) (fShamt5 w)⟩,
  ⟨"SRAIW", 0xFE00707F, 0x4000501B, fun w => .sraiw (fRd w) (fRs1 w) (fShamt5 w)⟩,
  ⟨"ADDW", 0xFE00707F, 0x0000003B, fun w => .addw (fRd w) (fRs1 w) (fRs2 w)⟩,
  ⟨"SUBW", 0xFE00707F, 0x4000003B, fun w => .subw (fRd w) (fRs1 w) (fRs2 w)⟩,
  ⟨"SLLW", 0xFE00707F, 0x0000103B, fun w => .sllw (fRd w) (fRs1 w) (fRs2 w)⟩,
  ⟨"SRLW", 0xFE00707F, 0x0000503B, fun w => .srlw (fRd w) (fRs1 w) (fRs2 w)⟩,
  ⟨"SRAW", 0xFE00707F, 0x4000503B, fun w => .sraw (fRd w) (fRs1 w) (fRs2 w)⟩,
  ⟨"EBREAK", 0xFFFFFFFF, 0x00100073, fun _ => .ebreak⟩]

/-- Entries 50 to 62 of 30_encoding.md R104: multiply and divide. -/
def tableM : List Entry := [
  ⟨"MUL", 0xFE00707F, 0x02000033, fun w => .mul (fRd w) (fRs1 w) (fRs2 w)⟩,
  ⟨"MULH", 0xFE00707F, 0x02001033, fun w => .mulh (fRd w) (fRs1 w) (fRs2 w)⟩,
  ⟨"MULHSU", 0xFE00707F, 0x02002033, fun w => .mulhsu (fRd w) (fRs1 w) (fRs2 w)⟩,
  ⟨"MULHU", 0xFE00707F, 0x02003033, fun w => .mulhu (fRd w) (fRs1 w) (fRs2 w)⟩,
  ⟨"DIV", 0xFE00707F, 0x02004033, fun w => .div (fRd w) (fRs1 w) (fRs2 w)⟩,
  ⟨"DIVU", 0xFE00707F, 0x02005033, fun w => .divu (fRd w) (fRs1 w) (fRs2 w)⟩,
  ⟨"REM", 0xFE00707F, 0x02006033, fun w => .rem (fRd w) (fRs1 w) (fRs2 w)⟩,
  ⟨"REMU", 0xFE00707F, 0x02007033, fun w => .remu (fRd w) (fRs1 w) (fRs2 w)⟩,
  ⟨"MULW", 0xFE00707F, 0x0200003B, fun w => .mulw (fRd w) (fRs1 w) (fRs2 w)⟩,
  ⟨"DIVW", 0xFE00707F, 0x0200403B, fun w => .divw (fRd w) (fRs1 w) (fRs2 w)⟩,
  ⟨"DIVUW", 0xFE00707F, 0x0200503B, fun w => .divuw (fRd w) (fRs1 w) (fRs2 w)⟩,
  ⟨"REMW", 0xFE00707F, 0x0200603B, fun w => .remw (fRd w) (fRs1 w) (fRs2 w)⟩,
  ⟨"REMUW", 0xFE00707F, 0x0200703B, fun w => .remuw (fRd w) (fRs1 w) (fRs2 w)⟩]

/-- Entries 63 to 84 of 30_encoding.md R104: atomics. -/
def tableA : List Entry := [
  ⟨"LR_W", 0xF9F0707F, 0x1000202F, fun w => .lrW (fRd w) (fRs1 w) (fAqRl w)⟩,
  ⟨"SC_W", 0xF800707F, 0x1800202F, fun w => .scW (fRd w) (fRs1 w) (fRs2 w) (fAqRl w)⟩,
  ⟨"AMOSWAP_W", 0xF800707F, 0x0800202F, fun w => .amoswapW (fRd w) (fRs1 w) (fRs2 w) (fAqRl w)⟩,
  ⟨"AMOADD_W", 0xF800707F, 0x0000202F, fun w => .amoaddW (fRd w) (fRs1 w) (fRs2 w) (fAqRl w)⟩,
  ⟨"AMOXOR_W", 0xF800707F, 0x2000202F, fun w => .amoxorW (fRd w) (fRs1 w) (fRs2 w) (fAqRl w)⟩,
  ⟨"AMOAND_W", 0xF800707F, 0x6000202F, fun w => .amoandW (fRd w) (fRs1 w) (fRs2 w) (fAqRl w)⟩,
  ⟨"AMOOR_W", 0xF800707F, 0x4000202F, fun w => .amoorW (fRd w) (fRs1 w) (fRs2 w) (fAqRl w)⟩,
  ⟨"AMOMIN_W", 0xF800707F, 0x8000202F, fun w => .amominW (fRd w) (fRs1 w) (fRs2 w) (fAqRl w)⟩,
  ⟨"AMOMAX_W", 0xF800707F, 0xA000202F, fun w => .amomaxW (fRd w) (fRs1 w) (fRs2 w) (fAqRl w)⟩,
  ⟨"AMOMINU_W", 0xF800707F, 0xC000202F, fun w => .amominuW (fRd w) (fRs1 w) (fRs2 w) (fAqRl w)⟩,
  ⟨"AMOMAXU_W", 0xF800707F, 0xE000202F, fun w => .amomaxuW (fRd w) (fRs1 w) (fRs2 w) (fAqRl w)⟩,
  ⟨"LR_D", 0xF9F0707F, 0x1000302F, fun w => .lrD (fRd w) (fRs1 w) (fAqRl w)⟩,
  ⟨"SC_D", 0xF800707F, 0x1800302F, fun w => .scD (fRd w) (fRs1 w) (fRs2 w) (fAqRl w)⟩,
  ⟨"AMOSWAP_D", 0xF800707F, 0x0800302F, fun w => .amoswapD (fRd w) (fRs1 w) (fRs2 w) (fAqRl w)⟩,
  ⟨"AMOADD_D", 0xF800707F, 0x0000302F, fun w => .amoaddD (fRd w) (fRs1 w) (fRs2 w) (fAqRl w)⟩,
  ⟨"AMOXOR_D", 0xF800707F, 0x2000302F, fun w => .amoxorD (fRd w) (fRs1 w) (fRs2 w) (fAqRl w)⟩,
  ⟨"AMOAND_D", 0xF800707F, 0x6000302F, fun w => .amoandD (fRd w) (fRs1 w) (fRs2 w) (fAqRl w)⟩,
  ⟨"AMOOR_D", 0xF800707F, 0x4000302F, fun w => .amoorD (fRd w) (fRs1 w) (fRs2 w) (fAqRl w)⟩,
  ⟨"AMOMIN_D", 0xF800707F, 0x8000302F, fun w => .amominD (fRd w) (fRs1 w) (fRs2 w) (fAqRl w)⟩,
  ⟨"AMOMAX_D", 0xF800707F, 0xA000302F, fun w => .amomaxD (fRd w) (fRs1 w) (fRs2 w) (fAqRl w)⟩,
  ⟨"AMOMINU_D", 0xF800707F, 0xC000302F, fun w => .amominuD (fRd w) (fRs1 w) (fRs2 w) (fAqRl w)⟩,
  ⟨"AMOMAXU_D", 0xF800707F, 0xE000302F, fun w => .amomaxuD (fRd w) (fRs1 w) (fRs2 w) (fAqRl w)⟩]

/-- Entries 85 to 99 of 30_encoding.md R104: float load, store, arithmetic. -/
def tableF1 : List Entry := [
  ⟨"FLW", 0x0000707F, 0x00002007, fun w => .flw (fRd w) (fRs1 w) (fImmI w)⟩,
  ⟨"FSW", 0x0000707F, 0x00002027, fun w => .fsw (fRs1 w) (fRs2 w) (fImmS w)⟩,
  ⟨"FMADD_S", 0x0600007F, 0x00000043, fun w => .fmaddS (fRd w) (fRs1 w) (fRs2 w) (fRs3 w) (fRm w)⟩,
  ⟨"FMSUB_S", 0x0600007F, 0x00000047, fun w => .fmsubS (fRd w) (fRs1 w) (fRs2 w) (fRs3 w) (fRm w)⟩,
  ⟨"FNMSUB_S", 0x0600007F, 0x0000004B, fun w => .fnmsubS (fRd w) (fRs1 w) (fRs2 w) (fRs3 w) (fRm w)⟩,
  ⟨"FNMADD_S", 0x0600007F, 0x0000004F, fun w => .fnmaddS (fRd w) (fRs1 w) (fRs2 w) (fRs3 w) (fRm w)⟩,
  ⟨"FADD_S", 0xFE00007F, 0x00000053, fun w => .faddS (fRd w) (fRs1 w) (fRs2 w) (fRm w)⟩,
  ⟨"FSUB_S", 0xFE00007F, 0x08000053, fun w => .fsubS (fRd w) (fRs1 w) (fRs2 w) (fRm w)⟩,
  ⟨"FMUL_S", 0xFE00007F, 0x10000053, fun w => .fmulS (fRd w) (fRs1 w) (fRs2 w) (fRm w)⟩,
  ⟨"FDIV_S", 0xFE00007F, 0x18000053, fun w => .fdivS (fRd w) (fRs1 w) (fRs2 w) (fRm w)⟩,
  ⟨"FSQRT_S", 0xFFF0007F, 0x58000053, fun w => .fsqrtS (fRd w) (fRs1 w) (fRm w)⟩,
  ⟨"FSGNJ_S", 0xFE00707F, 0x20000053, fun w => .fsgnjS (fRd w) (fRs1 w) (fRs2 w)⟩,
  ⟨"FSGNJN_S", 0xFE00707F, 0x20001053, fun w => .fsgnjnS (fRd w) (fRs1 w) (fRs2 w)⟩,
  ⟨"FSGNJX_S", 0xFE00707F, 0x20002053, fun w => .fsgnjxS (fRd w) (fRs1 w) (fRs2 w)⟩,
  ⟨"FMIN_S", 0xFE00707F, 0x28000053, fun w => .fminS (fRd w) (fRs1 w) (fRs2 w)⟩]

/-- Entries 100 to 114 of 30_encoding.md R104: float conversions, moves, comparisons. -/
def tableF2 : List Entry := [
  ⟨"FMAX_S", 0xFE00707F, 0x28001053, fun w => .fmaxS (fRd w) (fRs1 w) (fRs2 w)⟩,
  ⟨"FCVT_W_S", 0xFFF0007F, 0xC0000053, fun w => .fcvtWS (fRd w) (fRs1 w) (fRm w)⟩,
  ⟨"FCVT_WU_S", 0xFFF0007F, 0xC0100053, fun w => .fcvtWuS (fRd w) (fRs1 w) (fRm w)⟩,
  ⟨"FMV_X_W", 0xFFF0707F, 0xE0000053, fun w => .fmvXW (fRd w) (fRs1 w)⟩,
  ⟨"FEQ_S", 0xFE00707F, 0xA0002053, fun w => .feqS (fRd w) (fRs1 w) (fRs2 w)⟩,
  ⟨"FLT_S", 0xFE00707F, 0xA0001053, fun w => .fltS (fRd w) (fRs1 w) (fRs2 w)⟩,
  ⟨"FLE_S", 0xFE00707F, 0xA0000053, fun w => .fleS (fRd w) (fRs1 w) (fRs2 w)⟩,
  ⟨"FCLASS_S", 0xFFF0707F, 0xE0001053, fun w => .fclassS (fRd w) (fRs1 w)⟩,
  ⟨"FCVT_S_W", 0xFFF0007F, 0xD0000053, fun w => .fcvtSW (fRd w) (fRs1 w) (fRm w)⟩,
  ⟨"FCVT_S_WU", 0xFFF0007F, 0xD0100053, fun w => .fcvtSWu (fRd w) (fRs1 w) (fRm w)⟩,
  ⟨"FMV_W_X", 0xFFF0707F, 0xF0000053, fun w => .fmvWX (fRd w) (fRs1 w)⟩,
  ⟨"FCVT_L_S", 0xFFF0007F, 0xC0200053, fun w => .fcvtLS (fRd w) (fRs1 w) (fRm w)⟩,
  ⟨"FCVT_LU_S", 0xFFF0007F, 0xC0300053, fun w => .fcvtLuS (fRd w) (fRs1 w) (fRm w)⟩,
  ⟨"FCVT_S_L", 0xFFF0007F, 0xD0200053, fun w => .fcvtSL (fRd w) (fRs1 w) (fRm w)⟩,
  ⟨"FCVT_S_LU", 0xFFF0007F, 0xD0300053, fun w => .fcvtSLu (fRd w) (fRs1 w) (fRm w)⟩]

/-- Entries 115 to 125 of 30_encoding.md R104: compressed, first part. -/
def tableC1 : List Entry := [
  ⟨"C_ADDI4SPN", 0x0000E003, 0x00000000, fun w => .cAddi4spn (cRd' w) (cUimmCIW w)⟩,
  ⟨"C_LW", 0x0000E003, 0x00004000, fun w => .cLw (cRd' w) (cRs1' w) (cUimmLW w)⟩,
  ⟨"C_LD", 0x0000E003, 0x00006000, fun w => .cLd (cRd' w) (cRs1' w) (cUimmLD w)⟩,
  ⟨"C_SW", 0x0000E003, 0x0000C000, fun w => .cSw (cRs1' w) (cRs2' w) (cUimmLW w)⟩,
  ⟨"C_SD", 0x0000E003, 0x0000E000, fun w => .cSd (cRs1' w) (cRs2' w) (cUimmLD w)⟩,
  ⟨"C_NOP", 0x0000FFFF, 0x00000001, fun _ => .cNop⟩,
  ⟨"C_ADDI", 0x0000E003, 0x00000001, fun w => .cAddi (cRd w) (cImm6 w)⟩,
  ⟨"C_ADDIW", 0x0000E003, 0x00002001, fun w => .cAddiw (cRd w) (cImm6 w)⟩,
  ⟨"C_LI", 0x0000E003, 0x00004001, fun w => .cLi (cRd w) (cImm6 w)⟩,
  ⟨"C_ADDI16SP", 0x0000EF83, 0x00006101, fun w => .cAddi16sp (cImm16spField w)⟩,
  ⟨"C_LUI", 0x0000E003, 0x00006001, fun w => .cLui (cRd w) (cImm6 w)⟩]

/-- Entries 126 to 137 of 30_encoding.md R104: compressed, second part. -/
def tableC2 : List Entry := [
  ⟨"C_SRLI", 0x0000EC03, 0x00008001, fun w => .cSrli (cRs1' w) (cImm6 w)⟩,
  ⟨"C_SRAI", 0x0000EC03, 0x00008401, fun w => .cSrai (cRs1' w) (cImm6 w)⟩,
  ⟨"C_ANDI", 0x0000EC03, 0x00008801, fun w => .cAndi (cRs1' w) (cImm6 w)⟩,
  ⟨"C_SUB", 0x0000FC63, 0x00008C01, fun w => .cSub (cRs1' w) (cRs2' w)⟩,
  ⟨"C_XOR", 0x0000FC63, 0x00008C21, fun w => .cXor (cRs1' w) (cRs2' w)⟩,
  ⟨"C_OR", 0x0000FC63, 0x00008C41, fun w => .cOr (cRs1' w) (cRs2' w)⟩,
  ⟨"C_AND", 0x0000FC63, 0x00008C61, fun w => .cAnd (cRs1' w) (cRs2' w)⟩,
  ⟨"C_SUBW", 0x0000FC63, 0x00009C01, fun w => .cSubw (cRs1' w) (cRs2' w)⟩,
  ⟨"C_ADDW", 0x0000FC63, 0x00009C21, fun w => .cAddw (cRs1' w) (cRs2' w)⟩,
  ⟨"C_J", 0x0000E003, 0x0000A001, fun w => .cJ (cOffJ w)⟩,
  ⟨"C_BEQZ", 0x0000E003, 0x0000C001, fun w => .cBeqz (cRs1' w) (cOffB w)⟩,
  ⟨"C_BNEZ", 0x0000E003, 0x0000E001, fun w => .cBnez (cRs1' w) (cOffB w)⟩]

/-- Entries 138 to 147 of 30_encoding.md R104: compressed, third part. -/
def tableC3 : List Entry := [
  ⟨"C_SLLI", 0x0000E003, 0x00000002, fun w => .cSlli (cRd w) (cImm6 w)⟩,
  ⟨"C_LWSP", 0x0000E003, 0x00004002, fun w => .cLwsp (cRd w) (cUimmLWSP w)⟩,
  ⟨"C_LDSP", 0x0000E003, 0x00006002, fun w => .cLdsp (cRd w) (cUimmLDSP w)⟩,
  ⟨"C_JR", 0x0000F07F, 0x00008002, fun w => .cJr (cRd w)⟩,
  ⟨"C_MV", 0x0000F003, 0x00008002, fun w => .cMv (cRd w) (cRs2 w)⟩,
  ⟨"C_EBREAK", 0x0000FFFF, 0x00009002, fun _ => .cEbreak⟩,
  ⟨"C_JALR", 0x0000F07F, 0x00009002, fun w => .cJalr (cRd w)⟩,
  ⟨"C_ADD", 0x0000F003, 0x00009002, fun w => .cAdd (cRd w) (cRs2 w)⟩,
  ⟨"C_SWSP", 0x0000E003, 0x0000C002, fun w => .cSwsp (cRs2 w) (cUimmSWSP w)⟩,
  ⟨"C_SDSP", 0x0000E003, 0x0000E002, fun w => .cSdsp (cRs2 w) (cUimmSDSP w)⟩]

/-- The pattern table (30_encoding.md R104): one ordered list, segment F (indices 0 to 114) before segment C (115 to
147), R102. The index of an entry is its position. -/
def patternTable : List Entry :=
  tableJB ++ tableLS ++ tableAlu ++ tableM ++ tableA ++
    tableF1 ++ tableF2 ++ tableC1 ++ tableC2 ++ tableC3

/-! ### The matcher, R81, R105 -/

/-- `is_rvc`: the lowest two bits are not 11 (R81). -/
def isRvc (rawIn : Word32) : Bool := rawIn.extractLsb 1 0 != 0b11

/-- The word the scan works on: a compressed parcel is zero-extended, bits 31:16 of the input ignored (R81). -/
def scanWord (rawIn : Word32) : Word32 := if isRvc rawIn then (rawIn.extractLsb 15 0).setWidth 32 else rawIn

/-- The first entry that matches, in table order (R105: "first match wins"). -/
def firstMatch (raw : Word32) : Option Entry := patternTable.find? (·.hits raw)

/-- Why the decoder gives no instruction. -/
inductive DecodeError where
  /-- No table entry matches: the INVALID sentinel with the raw word (R112). -/
  | invalid (raw : Word32)
  /-- The byte stream ends inside an instruction; not a case of the block, whose input is a whole word (R80). -/
  | truncated
  deriving DecidableEq, Repr

/-- `Decode` of R105 on a 32-bit input word, as the matched entry with its fields; total (R110). -/
def decode (rawIn : Word32) : Except DecodeError Instr :=
  match firstMatch (scanWord rawIn) with
  | some e => .ok (e.build (scanWord rawIn))
  | none => .error (.invalid (scanWord rawIn))

/-- Decoding at the front of a byte stream, lowest address first (20_memory.md R50, R66): two bytes, then two more when
the low bits are 11. Answers the instruction and the bytes after it. -/
def decodeBytes : List Byte → Except DecodeError (Instr × List Byte)
  | b0 :: b1 :: rest =>
    if isRvc ((b1 ++ b0).setWidth 32) then
      (decode ((b1 ++ b0).setWidth 32)).map (·, rest)
    else match rest with
      | b2 :: b3 :: rest' => (decode (b3 ++ b2 ++ b1 ++ b0)).map (·, rest')
      | _ => .error .truncated
  | _ => .error .truncated

/-- The four bytes of a table word, the first word's low byte first; the bits above `nbits` are 0 (20_memory.md R50). -/
def tableWordBytes (nbits w : Nat) : List Byte :=
  let v := w % 2 ^ nbits
  [BitVec.ofNat 8 v, BitVec.ofNat 8 (v / 2 ^ 8), BitVec.ofNat 8 (v / 2 ^ 16), BitVec.ofNat 8 (v / 2 ^ 24)]

/-- The instruction the decoder reads from an opcode-table word of `nbits` bits, laid out in memory order. -/
def decodeTableWord (nbits w : Nat) : Option Instr :=
  match decodeBytes (tableWordBytes nbits w) with
  | .ok (i, _) => some i
  | .error _ => none

/-! ### The encoder: full-width formats, R92 -/

/-- Format R (integer, float): funct7, rs2, rs1, funct3 or rm, rd, opcode. -/
def encR (f7 : BitVec 7) (rs2 rs1 : Reg) (f3 : BitVec 3) (rd : Reg) (op : BitVec 7) : Word32 :=
  f7 ++ rs2 ++ rs1 ++ f3 ++ rd ++ op
/-- Format R (atomic): funct5, aq rl, rs2, rs1, funct3, rd, opcode. -/
def encA (f5 : BitVec 5) (aqrl : BitVec 2) (rs2 rs1 : Reg) (f3 : BitVec 3) (rd : Reg) (op : BitVec 7) : Word32 :=
  f5 ++ aqrl ++ rs2 ++ rs1 ++ f3 ++ rd ++ op
/-- Format R4: rs3, fmt, rs2, rs1, rm, rd, opcode. -/
def encR4 (rs3 : Reg) (fmt : BitVec 2) (rs2 rs1 : Reg) (rm : BitVec 3) (rd : Reg) (op : BitVec 7) : Word32 :=
  rs3 ++ fmt ++ rs2 ++ rs1 ++ rm ++ rd ++ op
/-- Format I: imm[11:0], rs1, funct3, rd, opcode. -/
def encI (imm : BitVec 12) (rs1 : Reg) (f3 : BitVec 3) (rd : Reg) (op : BitVec 7) : Word32 :=
  imm ++ rs1 ++ f3 ++ rd ++ op
/-- Format I, 6-bit shift: funct6, shamt, rs1, funct3, rd, opcode. -/
def encSh6 (f6 shamt : BitVec 6) (rs1 : Reg) (f3 : BitVec 3) (rd : Reg) (op : BitVec 7) : Word32 :=
  f6 ++ shamt ++ rs1 ++ f3 ++ rd ++ op
/-- Format S: imm[11:5], rs2, rs1, funct3, imm[4:0], opcode. -/
def encS (imm : BitVec 12) (rs2 rs1 : Reg) (f3 : BitVec 3) (op : BitVec 7) : Word32 :=
  imm.extractLsb 11 5 ++ rs2 ++ rs1 ++ f3 ++ imm.extractLsb 4 0 ++ op
/-- Format B, `off` being bits 12:1 of the offset: bit 31 is imm[12], 30:25 imm[10:5], 11:8 imm[4:1], 7 imm[11]. -/
def encB (off : BitVec 12) (rs2 rs1 : Reg) (f3 : BitVec 3) (op : BitVec 7) : Word32 :=
  off.extractLsb 11 11 ++ off.extractLsb 9 4 ++ rs2 ++ rs1 ++ f3 ++ off.extractLsb 3 0 ++ off.extractLsb 10 10 ++ op
/-- Format U: imm[31:12], rd, opcode. -/
def encU (imm : BitVec 20) (rd : Reg) (op : BitVec 7) : Word32 := imm ++ rd ++ op
/-- Format J, `off` being bits 20:1 of the offset: bit 31 is imm[20], 30:21 imm[10:1], 20 imm[11], 19:12 imm[19:12]. -/
def encJ (off : BitVec 20) (rd : Reg) (op : BitVec 7) : Word32 :=
  off.extractLsb 19 19 ++ off.extractLsb 9 0 ++ off.extractLsb 10 10 ++ off.extractLsb 18 11 ++ rd ++ op

/-! ### The encoder: compressed formats, R98, and the scrambles of 44_compressed.md turned round -/

/-- CR: funct4, rd/rs1, rs2, op. -/
def encCR (f4 : BitVec 4) (r rs2 : Reg) (op : BitVec 2) : BitVec 16 := f4 ++ r ++ rs2 ++ op
/-- CI: funct3, c[12], rd/rs1, c[6:2], op. -/
def encCI (f3 : BitVec 3) (hi : BitVec 1) (r : Reg) (lo : BitVec 5) (op : BitVec 2) : BitVec 16 :=
  f3 ++ hi ++ r ++ lo ++ op
/-- CSS: funct3, c[12:7], rs2, op. -/
def encCSS (f3 : BitVec 3) (imm : BitVec 6) (rs2 : Reg) (op : BitVec 2) : BitVec 16 := f3 ++ imm ++ rs2 ++ op
/-- CIW: funct3, c[12:5], rd', op. -/
def encCIW (f3 : BitVec 3) (imm : BitVec 8) (rd' : CReg) (op : BitVec 2) : BitVec 16 := f3 ++ imm ++ rd' ++ op
/-- CL and CS: funct3, c[12:10], rs1', c[6:5], rd' or rs2', op; `imm` is c[12:10] then c[6:5]. -/
def encCL (f3 : BitVec 3) (imm : BitVec 5) (rs1' r' : CReg) (op : BitVec 2) : BitVec 16 :=
  f3 ++ imm.extractLsb 4 2 ++ rs1' ++ imm.extractLsb 1 0 ++ r' ++ op
/-- CA: funct6, rd', funct2, rs2', op. -/
def encCA (f6 : BitVec 6) (rd' : CReg) (f2 : BitVec 2) (rs2' : CReg) (op : BitVec 2) : BitVec 16 :=
  f6 ++ rd' ++ f2 ++ rs2' ++ op
/-- CB, shift and C.ANDI forms: funct3, c[12], funct2, rd', c[6:2], op. -/
def encCBa (f3 : BitVec 3) (hi : BitVec 1) (f2 : BitVec 2) (rd' : CReg) (lo : BitVec 5) (op : BitVec 2) : BitVec 16 :=
  f3 ++ hi ++ f2 ++ rd' ++ lo ++ op
/-- CB, branch forms: funct3, c[12:10], rs1', c[6:2], op. -/
def encCB (f3 : BitVec 3) (hi : BitVec 3) (rs1' : CReg) (lo : BitVec 5) (op : BitVec 2) : BitVec 16 :=
  f3 ++ hi ++ rs1' ++ lo ++ op
/-- CJ: funct3, c[12:2], op. -/
def encCJ (f3 : BitVec 3) (t : BitVec 11) (op : BitVec 2) : BitVec 16 := f3 ++ t ++ op

/-- c[12:5] of C.ADDI4SPN (R305). -/
def scCIW (u : BitVec 8) : BitVec 8 := u.extractLsb 3 2 ++ u.extractLsb 7 4 ++ u.extractLsb 0 0 ++ u.extractLsb 1 1
/-- c[12:10], c[6:5] of C.LW and C.SW (R306, R308). -/
def scLW (u : BitVec 5) : BitVec 5 := u.extractLsb 3 1 ++ u.extractLsb 0 0 ++ u.extractLsb 4 4
/-- c[12:10], c[6:5] of C.LD and C.SD (R307, R309). -/
def scLD (u : BitVec 5) : BitVec 5 := u.extractLsb 2 0 ++ u.extractLsb 4 3
/-- c[6:2] of C.ADDI16SP (R314). -/
def sc16sp (i : BitVec 6) : BitVec 5 :=
  i.extractLsb 0 0 ++ i.extractLsb 2 2 ++ i.extractLsb 4 3 ++ i.extractLsb 1 1
/-- c[12:2] of C.J (R325). -/
def scJ (o : BitVec 11) : BitVec 11 :=
  o.extractLsb 10 10 ++ o.extractLsb 3 3 ++ o.extractLsb 8 7 ++ o.extractLsb 9 9 ++ o.extractLsb 5 5 ++
    o.extractLsb 6 6 ++ o.extractLsb 2 0 ++ o.extractLsb 4 4
/-- c[12:10] of C.BEQZ and C.BNEZ (R326, R327). -/
def scBhi (o : BitVec 8) : BitVec 3 := o.extractLsb 7 7 ++ o.extractLsb 3 2
/-- c[6:2] of C.BEQZ and C.BNEZ (R326, R327). -/
def scBlo (o : BitVec 8) : BitVec 5 := o.extractLsb 6 5 ++ o.extractLsb 1 0 ++ o.extractLsb 4 4
/-- c[6:2] of C.LWSP (R329); c[12] is bit 3 of the field. -/
def scLWSP (u : BitVec 6) : BitVec 5 := u.extractLsb 2 0 ++ u.extractLsb 5 4
/-- c[6:2] of C.LDSP (R330); c[12] is bit 2 of the field. -/
def scLDSP (u : BitVec 6) : BitVec 5 := u.extractLsb 1 0 ++ u.extractLsb 5 3
/-- c[12:7] of C.SWSP (R336). -/
def scSWSP (u : BitVec 6) : BitVec 6 := u.extractLsb 3 0 ++ u.extractLsb 5 4
/-- c[12:7] of C.SDSP (R337). -/
def scSDSP (u : BitVec 6) : BitVec 6 := u.extractLsb 2 0 ++ u.extractLsb 5 3

/-- A parcel as a 32-bit word, zeros above (R81). -/
def zext32 (c : BitVec 16) : Word32 := c.setWidth 32

/-- The word of an instruction, from the encodings of 30_encoding.md R92 and R98 with the fixed bits of R104. A
compressed instruction's parcel stands in bits 15:0, zeros above (R81). -/
def encode : Instr → Word32
  | .lui rd imm => encU imm rd 0b0110111
  | .auipc rd imm => encU imm rd 0b0010111
  | .jal rd off => encJ off rd 0b1101111
  | .jalr rd rs1 imm => encI imm rs1 0b000 rd 0b1100111
  | .beq rs1 rs2 off => encB off rs2 rs1 0b000 0b1100011
  | .bne rs1 rs2 off => encB off rs2 rs1 0b001 0b1100011
  | .blt rs1 rs2 off => encB off rs2 rs1 0b100 0b1100011
  | .bge rs1 rs2 off => encB off rs2 rs1 0b101 0b1100011
  | .bltu rs1 rs2 off => encB off rs2 rs1 0b110 0b1100011
  | .bgeu rs1 rs2 off => encB off rs2 rs1 0b111 0b1100011
  | .lb rd rs1 imm => encI imm rs1 0b000 rd 0b0000011
  | .lh rd rs1 imm => encI imm rs1 0b001 rd 0b0000011
  | .lw rd rs1 imm => encI imm rs1 0b010 rd 0b0000011
  | .ld rd rs1 imm => encI imm rs1 0b011 rd 0b0000011
  | .lbu rd rs1 imm => encI imm rs1 0b100 rd 0b0000011
  | .lhu rd rs1 imm => encI imm rs1 0b101 rd 0b0000011
  | .lwu rd rs1 imm => encI imm rs1 0b110 rd 0b0000011
  | .sb rs1 rs2 imm => encS imm rs2 rs1 0b000 0b0100011
  | .sh rs1 rs2 imm => encS imm rs2 rs1 0b001 0b0100011
  | .sw rs1 rs2 imm => encS imm rs2 rs1 0b010 0b0100011
  | .sd rs1 rs2 imm => encS imm rs2 rs1 0b011 0b0100011
  | .addi rd rs1 imm => encI imm rs1 0b000 rd 0b0010011
  | .slti rd rs1 imm => encI imm rs1 0b010 rd 0b0010011
  | .sltiu rd rs1 imm => encI imm rs1 0b011 rd 0b0010011
  | .xori rd rs1 imm => encI imm rs1 0b100 rd 0b0010011
  | .ori rd rs1 imm => encI imm rs1 0b110 rd 0b0010011
  | .andi rd rs1 imm => encI imm rs1 0b111 rd 0b0010011
  | .slli rd rs1 shamt => encSh6 0b000000 shamt rs1 0b001 rd 0b0010011
  | .srli rd rs1 shamt => encSh6 0b000000 shamt rs1 0b101 rd 0b0010011
  | .srai rd rs1 shamt => encSh6 0b010000 shamt rs1 0b101 rd 0b0010011
  | .add rd rs1 rs2 => encR 0b0000000 rs2 rs1 0b000 rd 0b0110011
  | .sub rd rs1 rs2 => encR 0b0100000 rs2 rs1 0b000 rd 0b0110011
  | .sll rd rs1 rs2 => encR 0b0000000 rs2 rs1 0b001 rd 0b0110011
  | .slt rd rs1 rs2 => encR 0b0000000 rs2 rs1 0b010 rd 0b0110011
  | .sltu rd rs1 rs2 => encR 0b0000000 rs2 rs1 0b011 rd 0b0110011
  | .xor rd rs1 rs2 => encR 0b0000000 rs2 rs1 0b100 rd 0b0110011
  | .srl rd rs1 rs2 => encR 0b0000000 rs2 rs1 0b101 rd 0b0110011
  | .sra rd rs1 rs2 => encR 0b0100000 rs2 rs1 0b101 rd 0b0110011
  | .or rd rs1 rs2 => encR 0b0000000 rs2 rs1 0b110 rd 0b0110011
  | .and rd rs1 rs2 => encR 0b0000000 rs2 rs1 0b111 rd 0b0110011
  | .addiw rd rs1 imm => encI imm rs1 0b000 rd 0b0011011
  | .slliw rd rs1 shamt => encR 0b0000000 shamt rs1 0b001 rd 0b0011011
  | .srliw rd rs1 shamt => encR 0b0000000 shamt rs1 0b101 rd 0b0011011
  | .sraiw rd rs1 shamt => encR 0b0100000 shamt rs1 0b101 rd 0b0011011
  | .addw rd rs1 rs2 => encR 0b0000000 rs2 rs1 0b000 rd 0b0111011
  | .subw rd rs1 rs2 => encR 0b0100000 rs2 rs1 0b000 rd 0b0111011
  | .sllw rd rs1 rs2 => encR 0b0000000 rs2 rs1 0b001 rd 0b0111011
  | .srlw rd rs1 rs2 => encR 0b0000000 rs2 rs1 0b101 rd 0b0111011
  | .sraw rd rs1 rs2 => encR 0b0100000 rs2 rs1 0b101 rd 0b0111011
  | .ebreak => 0x00100073
  | .mul rd rs1 rs2 => encR 0b0000001 rs2 rs1 0b000 rd 0b0110011
  | .mulh rd rs1 rs2 => encR 0b0000001 rs2 rs1 0b001 rd 0b0110011
  | .mulhsu rd rs1 rs2 => encR 0b0000001 rs2 rs1 0b010 rd 0b0110011
  | .mulhu rd rs1 rs2 => encR 0b0000001 rs2 rs1 0b011 rd 0b0110011
  | .div rd rs1 rs2 => encR 0b0000001 rs2 rs1 0b100 rd 0b0110011
  | .divu rd rs1 rs2 => encR 0b0000001 rs2 rs1 0b101 rd 0b0110011
  | .rem rd rs1 rs2 => encR 0b0000001 rs2 rs1 0b110 rd 0b0110011
  | .remu rd rs1 rs2 => encR 0b0000001 rs2 rs1 0b111 rd 0b0110011
  | .mulw rd rs1 rs2 => encR 0b0000001 rs2 rs1 0b000 rd 0b0111011
  | .divw rd rs1 rs2 => encR 0b0000001 rs2 rs1 0b100 rd 0b0111011
  | .divuw rd rs1 rs2 => encR 0b0000001 rs2 rs1 0b101 rd 0b0111011
  | .remw rd rs1 rs2 => encR 0b0000001 rs2 rs1 0b110 rd 0b0111011
  | .remuw rd rs1 rs2 => encR 0b0000001 rs2 rs1 0b111 rd 0b0111011
  | .lrW rd rs1 aqrl => encA 0b00010 aqrl 0 rs1 0b010 rd 0b0101111
  | .scW rd rs1 rs2 aqrl => encA 0b00011 aqrl rs2 rs1 0b010 rd 0b0101111
  | .amoswapW rd rs1 rs2 aqrl => encA 0b00001 aqrl rs2 rs1 0b010 rd 0b0101111
  | .amoaddW rd rs1 rs2 aqrl => encA 0b00000 aqrl rs2 rs1 0b010 rd 0b0101111
  | .amoxorW rd rs1 rs2 aqrl => encA 0b00100 aqrl rs2 rs1 0b010 rd 0b0101111
  | .amoandW rd rs1 rs2 aqrl => encA 0b01100 aqrl rs2 rs1 0b010 rd 0b0101111
  | .amoorW rd rs1 rs2 aqrl => encA 0b01000 aqrl rs2 rs1 0b010 rd 0b0101111
  | .amominW rd rs1 rs2 aqrl => encA 0b10000 aqrl rs2 rs1 0b010 rd 0b0101111
  | .amomaxW rd rs1 rs2 aqrl => encA 0b10100 aqrl rs2 rs1 0b010 rd 0b0101111
  | .amominuW rd rs1 rs2 aqrl => encA 0b11000 aqrl rs2 rs1 0b010 rd 0b0101111
  | .amomaxuW rd rs1 rs2 aqrl => encA 0b11100 aqrl rs2 rs1 0b010 rd 0b0101111
  | .lrD rd rs1 aqrl => encA 0b00010 aqrl 0 rs1 0b011 rd 0b0101111
  | .scD rd rs1 rs2 aqrl => encA 0b00011 aqrl rs2 rs1 0b011 rd 0b0101111
  | .amoswapD rd rs1 rs2 aqrl => encA 0b00001 aqrl rs2 rs1 0b011 rd 0b0101111
  | .amoaddD rd rs1 rs2 aqrl => encA 0b00000 aqrl rs2 rs1 0b011 rd 0b0101111
  | .amoxorD rd rs1 rs2 aqrl => encA 0b00100 aqrl rs2 rs1 0b011 rd 0b0101111
  | .amoandD rd rs1 rs2 aqrl => encA 0b01100 aqrl rs2 rs1 0b011 rd 0b0101111
  | .amoorD rd rs1 rs2 aqrl => encA 0b01000 aqrl rs2 rs1 0b011 rd 0b0101111
  | .amominD rd rs1 rs2 aqrl => encA 0b10000 aqrl rs2 rs1 0b011 rd 0b0101111
  | .amomaxD rd rs1 rs2 aqrl => encA 0b10100 aqrl rs2 rs1 0b011 rd 0b0101111
  | .amominuD rd rs1 rs2 aqrl => encA 0b11000 aqrl rs2 rs1 0b011 rd 0b0101111
  | .amomaxuD rd rs1 rs2 aqrl => encA 0b11100 aqrl rs2 rs1 0b011 rd 0b0101111
  | .flw rd rs1 imm => encI imm rs1 0b010 rd 0b0000111
  | .fsw rs1 rs2 imm => encS imm rs2 rs1 0b010 0b0100111
  | .fmaddS rd rs1 rs2 rs3 rm => encR4 rs3 0b00 rs2 rs1 rm rd 0b1000011
  | .fmsubS rd rs1 rs2 rs3 rm => encR4 rs3 0b00 rs2 rs1 rm rd 0b1000111
  | .fnmsubS rd rs1 rs2 rs3 rm => encR4 rs3 0b00 rs2 rs1 rm rd 0b1001011
  | .fnmaddS rd rs1 rs2 rs3 rm => encR4 rs3 0b00 rs2 rs1 rm rd 0b1001111
  | .faddS rd rs1 rs2 rm => encR 0b0000000 rs2 rs1 rm rd 0b1010011
  | .fsubS rd rs1 rs2 rm => encR 0b0000100 rs2 rs1 rm rd 0b1010011
  | .fmulS rd rs1 rs2 rm => encR 0b0001000 rs2 rs1 rm rd 0b1010011
  | .fdivS rd rs1 rs2 rm => encR 0b0001100 rs2 rs1 rm rd 0b1010011
  | .fsqrtS rd rs1 rm => encR 0b0101100 0b00000 rs1 rm rd 0b1010011
  | .fsgnjS rd rs1 rs2 => encR 0b0010000 rs2 rs1 0b000 rd 0b1010011
  | .fsgnjnS rd rs1 rs2 => encR 0b0010000 rs2 rs1 0b001 rd 0b1010011
  | .fsgnjxS rd rs1 rs2 => encR 0b0010000 rs2 rs1 0b010 rd 0b1010011
  | .fminS rd rs1 rs2 => encR 0b0010100 rs2 rs1 0b000 rd 0b1010011
  | .fmaxS rd rs1 rs2 => encR 0b0010100 rs2 rs1 0b001 rd 0b1010011
  | .fcvtWS rd rs1 rm => encR 0b1100000 0b00000 rs1 rm rd 0b1010011
  | .fcvtWuS rd rs1 rm => encR 0b1100000 0b00001 rs1 rm rd 0b1010011
  | .fmvXW rd rs1 => encR 0b1110000 0b00000 rs1 0b000 rd 0b1010011
  | .feqS rd rs1 rs2 => encR 0b1010000 rs2 rs1 0b010 rd 0b1010011
  | .fltS rd rs1 rs2 => encR 0b1010000 rs2 rs1 0b001 rd 0b1010011
  | .fleS rd rs1 rs2 => encR 0b1010000 rs2 rs1 0b000 rd 0b1010011
  | .fclassS rd rs1 => encR 0b1110000 0b00000 rs1 0b001 rd 0b1010011
  | .fcvtSW rd rs1 rm => encR 0b1101000 0b00000 rs1 rm rd 0b1010011
  | .fcvtSWu rd rs1 rm => encR 0b1101000 0b00001 rs1 rm rd 0b1010011
  | .fmvWX rd rs1 => encR 0b1111000 0b00000 rs1 0b000 rd 0b1010011
  | .fcvtLS rd rs1 rm => encR 0b1100000 0b00010 rs1 rm rd 0b1010011
  | .fcvtLuS rd rs1 rm => encR 0b1100000 0b00011 rs1 rm rd 0b1010011
  | .fcvtSL rd rs1 rm => encR 0b1101000 0b00010 rs1 rm rd 0b1010011
  | .fcvtSLu rd rs1 rm => encR 0b1101000 0b00011 rs1 rm rd 0b1010011
  | .cAddi4spn rd' nzuimm => zext32 (encCIW 0b000 (scCIW nzuimm) rd' 0b00)
  | .cLw rd' rs1' uimm => zext32 (encCL 0b010 (scLW uimm) rs1' rd' 0b00)
  | .cLd rd' rs1' uimm => zext32 (encCL 0b011 (scLD uimm) rs1' rd' 0b00)
  | .cSw rs1' rs2' uimm => zext32 (encCL 0b110 (scLW uimm) rs1' rs2' 0b00)
  | .cSd rs1' rs2' uimm => zext32 (encCL 0b111 (scLD uimm) rs1' rs2' 0b00)
  | .cNop => 0x00000001
  | .cAddi rd imm => zext32 (encCI 0b000 (imm.extractLsb 5 5) rd (imm.extractLsb 4 0) 0b01)
  | .cAddiw rd imm => zext32 (encCI 0b001 (imm.extractLsb 5 5) rd (imm.extractLsb 4 0) 0b01)
  | .cLi rd imm => zext32 (encCI 0b010 (imm.extractLsb 5 5) rd (imm.extractLsb 4 0) 0b01)
  | .cAddi16sp imm => zext32 (encCI 0b011 (imm.extractLsb 5 5) 2 (sc16sp imm) 0b01)
  | .cLui rd imm => zext32 (encCI 0b011 (imm.extractLsb 5 5) rd (imm.extractLsb 4 0) 0b01)
  | .cSrli rd' shamt => zext32 (encCBa 0b100 (shamt.extractLsb 5 5) 0b00 rd' (shamt.extractLsb 4 0) 0b01)
  | .cSrai rd' shamt => zext32 (encCBa 0b100 (shamt.extractLsb 5 5) 0b01 rd' (shamt.extractLsb 4 0) 0b01)
  | .cAndi rd' imm => zext32 (encCBa 0b100 (imm.extractLsb 5 5) 0b10 rd' (imm.extractLsb 4 0) 0b01)
  | .cSub rd' rs2' => zext32 (encCA 0b100011 rd' 0b00 rs2' 0b01)
  | .cXor rd' rs2' => zext32 (encCA 0b100011 rd' 0b01 rs2' 0b01)
  | .cOr rd' rs2' => zext32 (encCA 0b100011 rd' 0b10 rs2' 0b01)
  | .cAnd rd' rs2' => zext32 (encCA 0b100011 rd' 0b11 rs2' 0b01)
  | .cSubw rd' rs2' => zext32 (encCA 0b100111 rd' 0b00 rs2' 0b01)
  | .cAddw rd' rs2' => zext32 (encCA 0b100111 rd' 0b01 rs2' 0b01)
  | .cJ off => zext32 (encCJ 0b101 (scJ off) 0b01)
  | .cBeqz rs1' off => zext32 (encCB 0b110 (scBhi off) rs1' (scBlo off) 0b01)
  | .cBnez rs1' off => zext32 (encCB 0b111 (scBhi off) rs1' (scBlo off) 0b01)
  | .cSlli rd shamt => zext32 (encCI 0b000 (shamt.extractLsb 5 5) rd (shamt.extractLsb 4 0) 0b10)
  | .cLwsp rd uimm => zext32 (encCI 0b010 (uimm.extractLsb 3 3) rd (scLWSP uimm) 0b10)
  | .cLdsp rd uimm => zext32 (encCI 0b011 (uimm.extractLsb 2 2) rd (scLDSP uimm) 0b10)
  | .cJr rs1 => zext32 (encCR 0b1000 rs1 0 0b10)
  | .cMv rd rs2 => zext32 (encCR 0b1000 rd rs2 0b10)
  | .cEbreak => 0x00009002
  | .cJalr rs1 => zext32 (encCR 0b1001 rs1 0 0b10)
  | .cAdd rd rs2 => zext32 (encCR 0b1001 rd rs2 0b10)
  | .cSwsp rs2 uimm => zext32 (encCSS 0b110 (scSWSP uimm) rs2 0b10)
  | .cSdsp rs2 uimm => zext32 (encCSS 0b111 (scSDSP uimm) rs2 0b10)

/-- `width`: 2 for a compressed instruction, 4 otherwise (00_scope.md R11, 10_state.md R26). -/
def Instr.width (i : Instr) : Word := if isRvc (encode i) then 2 else 4

/-- The bytes of an instruction as memory holds them, lowest address first (20_memory.md R50). -/
def encodeBytes (i : Instr) : List Byte :=
  let w := encode i
  if isRvc w then [w.extractLsb 7 0, w.extractLsb 15 8]
  else [w.extractLsb 7 0, w.extractLsb 15 8, w.extractLsb 23 16, w.extractLsb 31 24]

/-- The index of the entry an instruction is the reading of (30_encoding.md R104): its row of the opcode table. -/
def Instr.index : Instr → Nat
  | .lui .. => 0
  | .auipc .. => 1
  | .jal .. => 2
  | .jalr .. => 3
  | .beq .. => 4
  | .bne .. => 5
  | .blt .. => 6
  | .bge .. => 7
  | .bltu .. => 8
  | .bgeu .. => 9
  | .lb .. => 10
  | .lh .. => 11
  | .lw .. => 12
  | .ld .. => 13
  | .lbu .. => 14
  | .lhu .. => 15
  | .lwu .. => 16
  | .sb .. => 17
  | .sh .. => 18
  | .sw .. => 19
  | .sd .. => 20
  | .addi .. => 21
  | .slti .. => 22
  | .sltiu .. => 23
  | .xori .. => 24
  | .ori .. => 25
  | .andi .. => 26
  | .slli .. => 27
  | .srli .. => 28
  | .srai .. => 29
  | .add .. => 30
  | .sub .. => 31
  | .sll .. => 32
  | .slt .. => 33
  | .sltu .. => 34
  | .xor .. => 35
  | .srl .. => 36
  | .sra .. => 37
  | .or .. => 38
  | .and .. => 39
  | .addiw .. => 40
  | .slliw .. => 41
  | .srliw .. => 42
  | .sraiw .. => 43
  | .addw .. => 44
  | .subw .. => 45
  | .sllw .. => 46
  | .srlw .. => 47
  | .sraw .. => 48
  | .ebreak => 49
  | .mul .. => 50
  | .mulh .. => 51
  | .mulhsu .. => 52
  | .mulhu .. => 53
  | .div .. => 54
  | .divu .. => 55
  | .rem .. => 56
  | .remu .. => 57
  | .mulw .. => 58
  | .divw .. => 59
  | .divuw .. => 60
  | .remw .. => 61
  | .remuw .. => 62
  | .lrW .. => 63
  | .scW .. => 64
  | .amoswapW .. => 65
  | .amoaddW .. => 66
  | .amoxorW .. => 67
  | .amoandW .. => 68
  | .amoorW .. => 69
  | .amominW .. => 70
  | .amomaxW .. => 71
  | .amominuW .. => 72
  | .amomaxuW .. => 73
  | .lrD .. => 74
  | .scD .. => 75
  | .amoswapD .. => 76
  | .amoaddD .. => 77
  | .amoxorD .. => 78
  | .amoandD .. => 79
  | .amoorD .. => 80
  | .amominD .. => 81
  | .amomaxD .. => 82
  | .amominuD .. => 83
  | .amomaxuD .. => 84
  | .flw .. => 85
  | .fsw .. => 86
  | .fmaddS .. => 87
  | .fmsubS .. => 88
  | .fnmsubS .. => 89
  | .fnmaddS .. => 90
  | .faddS .. => 91
  | .fsubS .. => 92
  | .fmulS .. => 93
  | .fdivS .. => 94
  | .fsqrtS .. => 95
  | .fsgnjS .. => 96
  | .fsgnjnS .. => 97
  | .fsgnjxS .. => 98
  | .fminS .. => 99
  | .fmaxS .. => 100
  | .fcvtWS .. => 101
  | .fcvtWuS .. => 102
  | .fmvXW .. => 103
  | .feqS .. => 104
  | .fltS .. => 105
  | .fleS .. => 106
  | .fclassS .. => 107
  | .fcvtSW .. => 108
  | .fcvtSWu .. => 109
  | .fmvWX .. => 110
  | .fcvtLS .. => 111
  | .fcvtLuS .. => 112
  | .fcvtSL .. => 113
  | .fcvtSLu .. => 114
  | .cAddi4spn .. => 115
  | .cLw .. => 116
  | .cLd .. => 117
  | .cSw .. => 118
  | .cSd .. => 119
  | .cNop => 120
  | .cAddi .. => 121
  | .cAddiw .. => 122
  | .cLi .. => 123
  | .cAddi16sp .. => 124
  | .cLui .. => 125
  | .cSrli .. => 126
  | .cSrai .. => 127
  | .cAndi .. => 128
  | .cSub .. => 129
  | .cXor .. => 130
  | .cOr .. => 131
  | .cAnd .. => 132
  | .cSubw .. => 133
  | .cAddw .. => 134
  | .cJ .. => 135
  | .cBeqz .. => 136
  | .cBnez .. => 137
  | .cSlli .. => 138
  | .cLwsp .. => 139
  | .cLdsp .. => 140
  | .cJr .. => 141
  | .cMv .. => 142
  | .cEbreak => 143
  | .cJalr .. => 144
  | .cAdd .. => 145
  | .cSwsp .. => 146
  | .cSdsp .. => 147

/-! ### The block's output, R80 -/

/-- The variant the matching entry's decode function outputs (30_encoding.md R109, 44_compressed.md R305 to R337), for
the word `raw` the scan worked on. -/
def Instr.variant (raw : Word32) : Instr → RISCVInst
  | .lui rd imm => .lui rd (immU imm)
  | .auipc rd imm => .auipc rd (immU imm)
  | .jal rd off => .jal rd (immJ off)
  | .jalr rd rs1 imm => .jalr rd rs1 (immI imm)
  | .beq rs1 rs2 off => .b rs1 rs2 (immB off) 0b000
  | .bne rs1 rs2 off => .b rs1 rs2 (immB off) 0b001
  | .blt rs1 rs2 off => .b rs1 rs2 (immB off) 0b100
  | .bge rs1 rs2 off => .b rs1 rs2 (immB off) 0b101
  | .bltu rs1 rs2 off => .b rs1 rs2 (immB off) 0b110
  | .bgeu rs1 rs2 off => .b rs1 rs2 (immB off) 0b111
  | .lb rd rs1 imm => .lb rd rs1 (immI imm)
  | .lh rd rs1 imm => .lh rd rs1 (immI imm)
  | .lw rd rs1 imm => .lw rd rs1 (immI imm)
  | .ld rd rs1 imm => .ld rd rs1 (immI imm)
  | .lbu rd rs1 imm => .lbu rd rs1 (immI imm)
  | .lhu rd rs1 imm => .lhu rd rs1 (immI imm)
  | .lwu rd rs1 imm => .lwu rd rs1 (immI imm)
  | .sb rs1 rs2 imm => .sb rs1 rs2 (immI imm)
  | .sh rs1 rs2 imm => .sh rs1 rs2 (immI imm)
  | .sw rs1 rs2 imm => .sw rs1 rs2 (immI imm)
  | .sd rs1 rs2 imm => .sd rs1 rs2 (immI imm)
  | .addi rd rs1 imm => .addi rd rs1 (immI imm)
  | .slti rd rs1 imm => .slti rd rs1 (immI imm)
  | .sltiu rd rs1 imm => .sltiu rd rs1 (immI imm)
  | .xori rd rs1 imm => .xori rd rs1 (immI imm)
  | .ori rd rs1 imm => .ori rd rs1 (immI imm)
  | .andi rd rs1 imm => .andi rd rs1 (immI imm)
  | .slli rd rs1 shamt => .slli rd rs1 shamt
  | .srli rd rs1 shamt => .srli rd rs1 shamt
  | .srai rd rs1 shamt => .srai rd rs1 shamt
  | .add rd rs1 rs2 => .add rd rs1 rs2
  | .sub rd rs1 rs2 => .sub rd rs1 rs2
  | .sll rd rs1 rs2 => .sll rd rs1 rs2
  | .slt rd rs1 rs2 => .slt rd rs1 rs2
  | .sltu rd rs1 rs2 => .sltu rd rs1 rs2
  | .xor rd rs1 rs2 => .xor rd rs1 rs2
  | .srl rd rs1 rs2 => .srl rd rs1 rs2
  | .sra rd rs1 rs2 => .sra rd rs1 rs2
  | .or rd rs1 rs2 => .or rd rs1 rs2
  | .and rd rs1 rs2 => .and rd rs1 rs2
  | .addiw rd rs1 imm => .addiw rd rs1 (immI imm)
  | .slliw rd rs1 shamt => .slliw rd rs1 (shamt.setWidth 6)
  | .srliw rd rs1 shamt => .srliw rd rs1 (shamt.setWidth 6)
  | .sraiw rd rs1 shamt => .sraiw rd rs1 (shamt.setWidth 6)
  | .addw rd rs1 rs2 => .addw rd rs1 rs2
  | .subw rd rs1 rs2 => .subw rd rs1 rs2
  | .sllw rd rs1 rs2 => .sllw rd rs1 rs2
  | .srlw rd rs1 rs2 => .srlw rd rs1 rs2
  | .sraw rd rs1 rs2 => .sraw rd rs1 rs2
  | .ebreak => .ebreak raw
  | .mul rd rs1 rs2 => .mul rd rs1 rs2
  | .mulh rd rs1 rs2 => .mulh rd rs1 rs2
  | .mulhsu rd rs1 rs2 => .mulhsu rd rs1 rs2
  | .mulhu rd rs1 rs2 => .mulhu rd rs1 rs2
  | .div rd rs1 rs2 => .div rd rs1 rs2
  | .divu rd rs1 rs2 => .divu rd rs1 rs2
  | .rem rd rs1 rs2 => .rem rd rs1 rs2
  | .remu rd rs1 rs2 => .remu rd rs1 rs2
  | .mulw rd rs1 rs2 => .mulw rd rs1 rs2
  | .divw rd rs1 rs2 => .divw rd rs1 rs2
  | .divuw rd rs1 rs2 => .divuw rd rs1 rs2
  | .remw rd rs1 rs2 => .remw rd rs1 rs2
  | .remuw rd rs1 rs2 => .remuw rd rs1 rs2
  | .lrW rd rs1 _ => .lrW rd rs1
  | .scW rd rs1 rs2 _ => .scW rd rs1 rs2
  | .amoswapW rd rs1 rs2 _ => .amoswapW rd rs1 rs2
  | .amoaddW rd rs1 rs2 _ => .amoaddW rd rs1 rs2
  | .amoxorW rd rs1 rs2 _ => .amoxorW rd rs1 rs2
  | .amoandW rd rs1 rs2 _ => .amoandW rd rs1 rs2
  | .amoorW rd rs1 rs2 _ => .amoorW rd rs1 rs2
  | .amominW rd rs1 rs2 _ => .amominW rd rs1 rs2
  | .amomaxW rd rs1 rs2 _ => .amomaxW rd rs1 rs2
  | .amominuW rd rs1 rs2 _ => .amominuW rd rs1 rs2
  | .amomaxuW rd rs1 rs2 _ => .amomaxuW rd rs1 rs2
  | .lrD rd rs1 _ => .lrD rd rs1
  | .scD rd rs1 rs2 _ => .scD rd rs1 rs2
  | .amoswapD rd rs1 rs2 _ => .amoswapD rd rs1 rs2
  | .amoaddD rd rs1 rs2 _ => .amoaddD rd rs1 rs2
  | .amoxorD rd rs1 rs2 _ => .amoxorD rd rs1 rs2
  | .amoandD rd rs1 rs2 _ => .amoandD rd rs1 rs2
  | .amoorD rd rs1 rs2 _ => .amoorD rd rs1 rs2
  | .amominD rd rs1 rs2 _ => .amominD rd rs1 rs2
  | .amomaxD rd rs1 rs2 _ => .amomaxD rd rs1 rs2
  | .amominuD rd rs1 rs2 _ => .amominuD rd rs1 rs2
  | .amomaxuD rd rs1 rs2 _ => .amomaxuD rd rs1 rs2
  | .flw rd rs1 imm => .flw rd rs1 (immI imm)
  | .fsw rs1 rs2 imm => .fsw rs1 rs2 (immI imm)
  | .fmaddS rd rs1 rs2 rs3 rm => .fmaddS rd rs1 rs2 rs3 rm
  | .fmsubS rd rs1 rs2 rs3 rm => .fmsubS rd rs1 rs2 rs3 rm
  | .fnmsubS rd rs1 rs2 rs3 rm => .fnmsubS rd rs1 rs2 rs3 rm
  | .fnmaddS rd rs1 rs2 rs3 rm => .fnmaddS rd rs1 rs2 rs3 rm
  | .faddS rd rs1 rs2 _ => .faddS rd rs1 rs2
  | .fsubS rd rs1 rs2 _ => .fsubS rd rs1 rs2
  | .fmulS rd rs1 rs2 _ => .fmulS rd rs1 rs2
  | .fdivS rd rs1 rs2 _ => .fdivS rd rs1 rs2
  | .fsqrtS rd rs1 _ => .fsqrtS rd rs1 0b00000
  | .fsgnjS rd rs1 rs2 => .fsgnjS rd rs1 rs2
  | .fsgnjnS rd rs1 rs2 => .fsgnjnS rd rs1 rs2
  | .fsgnjxS rd rs1 rs2 => .fsgnjxS rd rs1 rs2
  | .fminS rd rs1 rs2 => .fminS rd rs1 rs2
  | .fmaxS rd rs1 rs2 => .fmaxS rd rs1 rs2
  | .fcvtWS rd rs1 _ => .fcvtWS rd rs1 0b00000
  | .fcvtWuS rd rs1 _ => .fcvtWuS rd rs1 0b00001
  | .fmvXW rd rs1 => .fmvXW rd rs1 0b00000
  | .feqS rd rs1 rs2 => .feqS rd rs1 rs2
  | .fltS rd rs1 rs2 => .fltS rd rs1 rs2
  | .fleS rd rs1 rs2 => .fleS rd rs1 rs2
  | .fclassS rd rs1 => .fclassS rd rs1 0b00000
  | .fcvtSW rd rs1 _ => .fcvtSW rd rs1 0b00000
  | .fcvtSWu rd rs1 _ => .fcvtSWu rd rs1 0b00001
  | .fmvWX rd rs1 => .fmvWX rd rs1 0b00000
  | .fcvtLS rd rs1 _ => .fcvtLS rd rs1 0b00010
  | .fcvtLuS rd rs1 _ => .fcvtLuS rd rs1 0b00011
  | .fcvtSL rd rs1 _ => .fcvtSL rd rs1 0b00010
  | .fcvtSLu rd rs1 _ => .fcvtSLu rd rs1 0b00011
  | .cAddi4spn rd' nzuimm => if nzuimm = 0 then .reserved raw else .addi (xr' rd') 2 (cImm4spn nzuimm)
  | .cLw rd' rs1' uimm => .lw (xr' rd') (xr' rs1') (cOffW uimm)
  | .cLd rd' rs1' uimm => .ld (xr' rd') (xr' rs1') (cOffD uimm)
  | .cSw rs1' rs2' uimm => .sw (xr' rs1') (xr' rs2') (cOffW uimm)
  | .cSd rs1' rs2' uimm => .sd (xr' rs1') (xr' rs2') (cOffD uimm)
  | .cNop => .nop raw
  | .cAddi rd imm => if rd = 0 ∨ imm = 0 then .hint raw else .addi rd rd (cImm imm)
  | .cAddiw rd imm => if rd = 0 then .reserved raw else .addiw rd rd (cImm imm)
  | .cLi rd imm => if rd = 0 then .hint raw else .addi rd 0 (cImm imm)
  | .cAddi16sp imm => if imm = 0 then .reserved raw else .addi 2 2 (cImm16sp imm)
  | .cLui rd imm => if imm = 0 then .reserved raw else if rd = 0 then .hint raw else .lui rd (cImmLui imm)
  | .cSrli rd' shamt => if shamt = 0 then .hint raw else .srli (xr' rd') (xr' rd') shamt
  | .cSrai rd' shamt => if shamt = 0 then .hint raw else .srai (xr' rd') (xr' rd') shamt
  | .cAndi rd' imm => .andi (xr' rd') (xr' rd') (cImm imm)
  | .cSub rd' rs2' => .sub (xr' rd') (xr' rd') (xr' rs2')
  | .cXor rd' rs2' => .xor (xr' rd') (xr' rd') (xr' rs2')
  | .cOr rd' rs2' => .or (xr' rd') (xr' rd') (xr' rs2')
  | .cAnd rd' rs2' => .and (xr' rd') (xr' rd') (xr' rs2')
  | .cSubw rd' rs2' => .subw (xr' rd') (xr' rd') (xr' rs2')
  | .cAddw rd' rs2' => .addw (xr' rd') (xr' rd') (xr' rs2')
  | .cJ off => .jal 0 (cOffJump off)
  | .cBeqz rs1' off => .b (xr' rs1') 0 (cOffBranch off) 0b000
  | .cBnez rs1' off => .b (xr' rs1') 0 (cOffBranch off) 0b001
  | .cSlli rd shamt => if rd = 0 ∨ shamt = 0 then .hint raw else .slli rd rd shamt
  | .cLwsp rd uimm => if rd = 0 then .reserved raw else .lw rd 2 (cOffWsp uimm)
  | .cLdsp rd uimm => if rd = 0 then .reserved raw else .ld rd 2 (cOffDsp uimm)
  | .cJr rs1 => if rs1 = 0 then .reserved raw else .jalr 0 rs1 0
  | .cMv rd rs2 => if rd = 0 then .hint raw else .add rd 0 rs2
  | .cEbreak => .ebreak raw
  | .cJalr rs1 => .jalr 1 rs1 0
  | .cAdd rd rs2 => if rd = 0 then .hint raw else .add rd rd rs2
  | .cSwsp rs2 uimm => .sw 2 rs2 (cOffWsp uimm)
  | .cSdsp rs2 uimm => .sd 2 rs2 (cOffDsp uimm)

/-- The whole block (R105): every input word gives exactly one DecodeResult, with no error path (R110, R112). -/
def decodeBlock (rawIn : Word32) : DecodeResult where
  inst := match decode rawIn with
    | .ok i => i.variant (scanWord rawIn)
    | .error _ => .invalid (scanWord rawIn)
  raw := scanWord rawIn
  isRvc := isRvc rawIn
  pattern := patternTable.findIdx? (·.hits (scanWord rawIn))

end Sys2Proof
end

