-- ==== Sys2Proof/Config.lean ====
section
/-! DEFINITION. Config.lean: the values this model fixes for the reset state and for unlisted memory.

The spec has no reset: every one of these is a launch parameter of 10_state.md R39 and 70_reset_and_hazards.md R391,
and the value here is the model's choice (DESIGN CHOICE, log 1 to 6), taken from the launch state of 95_test_vectors.md. -/
namespace Sys2Proof.Config

/-- pc at reset. DESIGN CHOICE (log 3). -/
def resetPc : Word := 0x1000

/-- Every integer register at reset. DESIGN CHOICE (log 1). -/
def resetX : Word := 0

/-- Every float register at reset. DESIGN CHOICE (log 2). -/
def resetF : Word := 0

/-- What an unlisted byte of memory reads as. DESIGN CHOICE (log 4). -/
def unlistedByte : Byte := 0

/-- `FRM_DYN` at reset: round to nearest, ties to even. DESIGN CHOICE (log 5). -/
def resetFrmDyn : BitVec 3 := 0b000

end Sys2Proof.Config
end

