-- ==== Sys2Proof/Machine/State.lean ====
section
/-! DEFINITION. State.lean: everything the spec gives the machine, as plain data; the reasons a step can stop; reset. -/
namespace Sys2Proof.Machine

/-- One access an instruction or the fetch asks of the facade (20_memory.md R57, 60_exceptions.md R363). A memory access
is named by its byte count and start address, as the facade call is (R51, R52). -/
inductive Access where
  | readX (r : Reg)
  | writeX (r : Reg)
  | readF (r : Reg)
  | writeF (r : Reg)
  | readPc
  | writePc
  | readMem (n : Nat) (addr : Word)
  | writeMem (n : Nat) (addr : Word)
  deriving DecidableEq, Repr

/-- One clause of `FacadeFails` (20_memory.md R57): a register access that is refused, or the memory accesses of `n` bytes
whose start address lies in `first .. last`. A list of clauses expresses every predicate over accesses (log 6). -/
inductive Denial where
  | readX (r : Reg)
  | writeX (r : Reg)
  | readF (r : Reg)
  | writeF (r : Reg)
  | readPc
  | writePc
  | readMem (n : Nat) (first last : Word)
  | writeMem (n : Nat) (first last : Word)
  deriving DecidableEq, Repr

/-- Memory: the bytes that differ from what an unlisted address reads as (20_memory.md R53; log 4). -/
abbrev Memory := List Host.Cell

/-- The state of 10_state.md R39, with the two launch parameters `FRM_DYN` and `FacadeFails` (00_scope.md R7), which no
step changes. -/
structure State where
  /-- `x[1]` .. `x[31]`, at index register number minus 1; `x[0]` has no storage (10_state.md R21, R22; log 7). -/
  x : Vector Word 31
  /-- `f[0]` .. `f[31]` (10_state.md R30). -/
  f : Vector Word 32
  /-- The address of the instruction being executed (10_state.md R25). -/
  pc : Word
  /-- The byte-addressed memory (10_state.md R34). -/
  mem : Memory
  /-- The reservation: none, or the exact address (10_state.md R36). -/
  resv : Option Word
  /-- `FRM_DYN`, the dynamic rounding mode (10_state.md R29, 43_float.md R251; log 5). -/
  frmDyn : BitVec 3
  /-- `FacadeFails`, the accesses the facade refuses (20_memory.md R57; log 6). -/
  facade : List Denial
  deriving DecidableEq, Repr

/-- The kinds of EXECUTION_FAILURE (60_exceptions.md R363). All safe: the machine stops, state as before (R364). -/
inductive FailKind where
  /-- A refused read of x, f or, where the instruction computes with it, pc: every instruction that reads one. Safe. -/
  | regRead
  /-- A refused write of x or f: every instruction with a destination, x[0] excepted. Safe. -/
  | regWrite
  /-- A refused pc set: every instruction that would end OK. Safe. -/
  | pcWrite
  /-- A refused memory read: loads, FLW, LR, the AMOs. Safe. -/
  | memRead
  /-- A refused memory write: stores, FSW, a succeeding SC, the AMOs. Safe. -/
  | memWrite
  /-- An LR, SC or AMO address that is not a multiple of the access size. Safe. -/
  | misalignedAtomic
  /-- A rounding instruction whose code resolves to 101, 110 or 111. Safe. -/
  | invalidRoundingMode
  /-- A refused read of the instruction word. Safe. -/
  | fetch
  deriving DecidableEq, Repr

/-- The outcomes other than OK (60_exceptions.md R360). The run ends with one of them, in the state before the step
(R364, R365). -/
inductive Fault where
  /-- DEBUG_TRAP, by EBREAK and C.EBREAK: the proper end of a run (R362). Safe. -/
  | debugTrap
  /-- DECODE_FAILURE, by a word that matches no entry and by a RESERVED parcel (R361). Safe. -/
  | decodeFailure
  /-- EXECUTION_FAILURE(kind) (R363). Safe. -/
  | executionFailure (kind : FailKind)
  deriving DecidableEq, Repr

/-- Why the model gives no outcome. -/
inductive Refusal where
  /-- Raised by exec for an instruction without a meaning; safe. -/
  | notModelled (mnemonic : String)
  /-- Raised by step at an odd pc, which the spec's premise PcEven rules out (10_state.md R27, U21; log 8); safe. -/
  | oddPc
  deriving DecidableEq, Repr

/-- The machine at launch: `x[0]` = 0 and `resv` = none as the spec says (10_state.md R39); every other field is a
launch parameter there and takes the model's value (log 1 to 6). -/
def State.reset : State where
  x := Vector.replicate 31 Config.resetX
  f := Vector.replicate 32 Config.resetF
  pc := Config.resetPc
  mem := []
  resv := none
  frmDyn := Config.resetFrmDyn
  facade := []

end Sys2Proof.Machine
end

