-- ==== Sys2Proof/Machine/Ops.lean ====
section
/-! DEFINITION. Ops.lean: the named operations over registers, memory, pc and the reservation, each asking the facade;
the outcome of an instruction that does not end OK; the fetch.

Every operation takes what comes next as its last argument and ends the instruction at the first refused access, so the
order of the accesses is the order they are written in (60_exceptions.md R367) and an instruction that does not end OK
has changed nothing (R364). -/
namespace Sys2Proof.Machine

/-- How a step ends. -/
abbrev Result := Host.Outcome State Fault Refusal

/-! ### Ending an instruction other than OK, 60_exceptions.md R360 to R365, R369

There is no trap entry: an instruction that ends other than OK saves nothing and transfers control nowhere. -/

/-- `raise`: end the instruction with the outcome; the state is the one before the instruction (R364, R369). -/
def raise (f : Fault) : Result := .fault f

/-- `raise ExecutionFailure(kind)` (R363). -/
def fail (k : FailKind) : Result := raise (.executionFailure k)

/-! ### The facade, 20_memory.md R57 -/

/-- Whether a clause of `FacadeFails` speaks of an access. -/
def Denial.covers : Denial → Access → Bool
  | .readX r, .readX r' => r == r'
  | .writeX r, .writeX r' => r == r'
  | .readF r, .readF r' => r == r'
  | .writeF r, .writeF r' => r == r'
  | .readPc, .readPc => true
  | .writePc, .writePc => true
  | .readMem n a b, .readMem n' c => n == n' && a.ule c && c.ule b
  | .writeMem n a b, .writeMem n' c => n == n' && a.ule c && c.ule b
  | _, _ => false

/-- `FacadeFails` of an access (20_memory.md R57). -/
def State.refuses (s : State) (a : Access) : Bool := s.facade.any (·.covers a)

/-! ### Registers, 10_state.md -/

/-- The value of integer register `r`; register 0 is 0 (R22). -/
def State.getX (s : State) (r : Reg) : Word :=
  if h : r = 0#5 then 0 else s.x[r.toNat - 1]'(by have := r.isLt; have : r.toNat ≠ 0 := fun e => h (BitVec.eq_of_toNat_eq e); omega)

/-- The state with integer register `r` holding `v`; a write to register 0 changes nothing (R22). -/
def State.setX (s : State) (r : Reg) (v : Word) : State :=
  if h : r = 0#5 then s else
    { s with x := s.x.set (r.toNat - 1) v (by have := r.isLt; have : r.toNat ≠ 0 := fun e => h (BitVec.eq_of_toNat_eq e); omega) }

/-- The 64-bit pattern in float register `r` (R30). -/
def State.getF (s : State) (r : Reg) : Word := s.f[r.toNat]'r.isLt

/-- The state with float register `r` holding the pattern `v` (R30). -/
def State.setF (s : State) (r : Reg) (v : Word) : State := { s with f := s.f.set r.toNat v r.isLt }

/-- `x[r]` (00_scope.md R11): a refused read, of `x[0]` too, is RegRead (60_exceptions.md R363). -/
def readX (s : State) (r : Reg) (k : Word → Result) : Result :=
  if s.refuses (.readX r) then fail .regRead else k (s.getX r)

/-- `x[r] <- v`: a write to `x[0]` is a no-op that cannot be refused; any other refused write is RegWrite (R363). -/
def writeX (s : State) (r : Reg) (v : Word) (k : State → Result) : Result :=
  if r ≠ 0#5 ∧ s.refuses (.writeX r) then fail .regWrite else k (s.setX r v)

/-- `f[r]` (00_scope.md R11). -/
def readF (s : State) (r : Reg) (k : Word → Result) : Result :=
  if s.refuses (.readF r) then fail .regRead else k (s.getF r)

/-- `f[r] <- v` (00_scope.md R11). -/
def writeF (s : State) (r : Reg) (v : Word) (k : State → Result) : Result :=
  if s.refuses (.writeF r) then fail .regWrite else k (s.setF r v)

/-- `ReadS(r)` (10_state.md R32). -/
def readS (s : State) (r : Reg) (k : Word32 → Result) : Result := readF s r fun w => k (unboxChecked w)

/-- `WriteS(r, v)` (10_state.md R33). -/
def writeS (s : State) (r : Reg) (v : Word32) (k : State → Result) : Result := writeF s r (nanBox v) k

/-! ### The program counter, 10_state.md R25, R26 -/

/-- A read of pc as an operand (AUIPC, JAL, JALR, branches): a refusal is RegRead (60_exceptions.md R363; log 11). -/
def readPc (s : State) (k : Word → Result) : Result :=
  if s.refuses .readPc then fail .regRead else k s.pc

/-- The state with pc holding `t`. -/
def State.withPc (s : State) (t : Word) : State := { s with pc := t }

/-- `pc <- t`, the last write of every instruction that ends OK; a refusal is PcWrite (R363). -/
def setPc (s : State) (t : Word) : Result :=
  if s.refuses .writePc then fail .pcWrite else .next (s.withPc t)

/-- `pc <- pc + width` (10_state.md R26); the sum wraps. -/
def advance (s : State) (width : Word) : Result := setPc s (s.pc + width)

/-- HINT and NOP: no register or memory access, `pc <- pc + 2` (45_sentinels.md R354, R355). -/
def hint (s : State) : Result := advance s 2

/-! ### Memory, 20_memory.md -/

/-- The byte at address `a`. -/
def Memory.read : Memory → Nat → Byte
  | [], _ => Config.unlistedByte
  | (k, v) :: m, a => if k = a then v else Memory.read m a

/-- Insert a cell whose address is not listed, keeping the addresses rising. -/
def Memory.insert : Memory → Nat → Byte → Memory
  | [], a, v => [(a, v)]
  | (k, u) :: m, a, v => if k < a then (k, u) :: Memory.insert m a v else (a, v) :: (k, u) :: m

/-- Write one byte: the cell is removed when the value is what an unlisted address reads as. -/
def Memory.write (m : Memory) (a : Nat) (v : Byte) : Memory :=
  let m' : Memory := m.filter (·.1 != a)
  if v = Config.unlistedByte then m' else Memory.insert m' a v

/-- The canonical form: addresses strictly rising and below 2^64, no byte an unlisted address reads as. -/
def Memory.wf (m : Memory) : Bool :=
  decide (m.Pairwise fun c d => c.1 < d.1) && m.all fun c => c.2 != Config.unlistedByte && decide (c.1 < 2 ^ 64)

/-- The byte of the machine's memory at an address. -/
def State.byteAt (s : State) (a : Word) : Byte := Memory.read s.mem a.toNat

/-- The `n` bytes at `a .. a+n-1` (modulo 2^64), lowest address least significant, zero-extended (R50, R51, R58). -/
def loadLE (m : Memory) (a : Word) : Nat → Word
  | 0 => 0
  | n + 1 => zext64 (Memory.read m a.toNat) ||| (loadLE m (a + 1#64) n) <<< 8

/-- Store the low `n` bytes of `v` at `a .. a+n-1` (modulo 2^64), the least significant at `a` (R50, R52, R58). -/
def storeLE (m : Memory) (a v : Word) : Nat → Memory
  | 0 => m
  | n + 1 => storeLE (Memory.write m a.toNat (v.setWidth 8)) (a + 1#64) (v >>> 8) n

/-- The state with `m` for its memory. -/
def State.withMem (s : State) (m : Memory) : State := { s with mem := m }

/-- `MemRead(a, n)` (R51): one facade call, a refusal is MemRead. The value is zero-extended to 64 bits. -/
def memRead (s : State) (a : Word) (n : Nat) (k : Word → Result) : Result :=
  if s.refuses (.readMem n a) then fail .memRead else k (loadLE s.mem a n)

/-- `MemWrite(a, n, v)` (R52): one facade call, a refusal is MemWrite and changes nothing (log 13). -/
def memWrite (s : State) (a : Word) (n : Nat) (v : Word) (k : State → Result) : Result :=
  if s.refuses (.writeMem n a) then fail .memWrite else k (s.withMem (storeLE s.mem a v n))

/-- The effective address `x[rs1] + sext_64(imm)`, modulo 2^64 (R58). -/
def effAddr (base : Word) (imm : Word32) : Word := base + sext64 imm

/-! ### The reservation, 10_state.md R36 -/

/-- `resv <- some(a)` or `resv <- none`. -/
def State.setResv (s : State) (r : Option Word) : State := { s with resv := r }

/-- An atomic's address must be a multiple of its access size; else MisalignedAtomic (20_memory.md R55). -/
def requireAligned (a : Word) (n : Nat) (k : Result) : Result :=
  if a.toNat % n ≠ 0 then fail .misalignedAtomic else k

/-! ### The fetch, 20_memory.md R66 -/

/-- `Fetch(pc)`: two bytes, two more when the low bits are 11; none when a read is refused (R66). -/
def fetchWord (s : State) : Option Word32 :=
  if s.refuses (.readMem 2 s.pc) then none
  else
    let lo : BitVec 16 := (loadLE s.mem s.pc 2).setWidth 16
    if isRvc (lo.setWidth 32) then some (lo.setWidth 32)
    else if s.refuses (.readMem 2 (s.pc + 2)) then none
    else some ((loadLE s.mem (s.pc + 2) 2).setWidth 16 ++ lo)

/-- The DecodeResult of the instruction at pc, which the caller has beside the outcome (60_exceptions.md R361). -/
def decodeAt (s : State) : Option DecodeResult := (fetchWord s).map decodeBlock

/-- One step (70_reset_and_hazards.md R397) over a meaning of the decoded instruction: fetch, decode, execute. -/
def fetchDecode (s : State) (run : Instr → State → Result) : Result :=
  if s.pc.extractLsb 0 0 = 1 then .refused .oddPc
  else match fetchWord s with
    | none => fail .fetch
    | some rawIn => match decode rawIn with
      | .error _ => raise .decodeFailure
      | .ok i => run i s

end Sys2Proof.Machine
end

