-- ==== Sys2Proof/Machine/Shapes.lean ====
section
/-! DEFINITION. Shapes.lean: the instruction shapes the meanings share, over the operations of Ops.lean. `w` is the width
of the instruction, 4 or 2 (10_state.md R26): a compressed instruction is the shape of its expansion with `w = 2`
(44_compressed.md R300, R302). The order of the lines is the order of the accesses (20_memory.md R68). -/
namespace Sys2Proof.Machine

/-! ### Integer registers to an integer register -/

/-- No source: `x[rd] <- v`. -/
def aluX0 (w : Word) (rd : Reg) (v : Word) (s : State) : Result :=
  writeX s rd v fun s => advance s w

/-- One source: `x[rd] <- g(x[rs1])`. -/
def aluX1 (w : Word) (rd rs1 : Reg) (g : Word → Word) (s : State) : Result :=
  readX s rs1 fun a => writeX s rd (g a) fun s => advance s w

/-- Two sources: `x[rd] <- g(x[rs1], x[rs2])`. -/
def aluX2 (w : Word) (rd rs1 rs2 : Reg) (g : Word → Word → Word) (s : State) : Result :=
  readX s rs1 fun a => readX s rs2 fun b => writeX s rd (g a b) fun s => advance s w

/-! ### Control transfer, 40_base_integer.md R142 to R150 -/

/-- `x[rd] <- pc + v`. -/
def pcRel (w : Word) (rd : Reg) (v : Word) (s : State) : Result :=
  readPc s fun pc => writeX s rd (pc + v) fun s => advance s w

/-- Jump by an offset, linking `pc + w` (R143). -/
def jump (w : Word) (rd : Reg) (off : Word) (s : State) : Result :=
  readPc s fun pc => writeX s rd (pc + w) fun s => setPc s (pc + off)

/-- The target of JALR: the sum with bit 0 cleared (R144). -/
def jalrTarget (base off : Word) : Word := (base + off) &&& 0xFFFFFFFFFFFFFFFE

/-- Jump to a register plus an offset, linking `pc + w`; the register is read before the link is written (R144). -/
def jumpReg (w : Word) (rd rs1 : Reg) (off : Word) (s : State) : Result :=
  readPc s fun pc => readX s rs1 fun a => writeX s rd (pc + w) fun s => setPc s (jalrTarget a off)

/-- Branch by an offset when the condition holds of the two sources (R145 to R150). -/
def branch (w : Word) (rs1 rs2 : Reg) (off : Word) (c : Word → Word → Bool) (s : State) : Result :=
  readX s rs1 fun a => readX s rs2 fun b => readPc s fun pc =>
    setPc s (if c a b then pc + off else pc + w)

/-! ### Loads and stores, 40_base_integer.md R151 to R161, 43_float.md R253, R254 -/

/-- Load `n` bytes at `x[rs1] + imm`; `ext` widens them (R151 to R157). -/
def loadX (w : Word) (rd rs1 : Reg) (imm : Word32) (n : Nat) (ext : Word → Word) (s : State) : Result :=
  readX s rs1 fun a => memRead s (effAddr a imm) n fun v => writeX s rd (ext v) fun s => advance s w

/-- Store the low `n` bytes of `x[rs2]` at `x[rs1] + imm` (R158 to R161). -/
def storeX (w : Word) (rs1 rs2 : Reg) (imm : Word32) (n : Nat) (s : State) : Result :=
  readX s rs1 fun a => readX s rs2 fun v => memWrite s (effAddr a imm) n v fun s => advance s w

/-! ### Atomics, 42_atomics.md; `m` is the operand width in bits, `n` the access size in bytes -/

/-- LR: load, set the reservation, write the sign-extended value (R222, R233). -/
def loadReserved (m n : Nat) (rd rs1 : Reg) (s : State) : Result :=
  readX s rs1 fun a => requireAligned a n <| memRead s a n fun v =>
    writeX (s.setResv (some a)) rd (sext64 (v.setWidth m)) fun s => advance s 4

/-- SC: store when the reservation is this address, clear it, write 0 or 1 (R223, R234). -/
def storeConditional (n : Nat) (rd rs1 rs2 : Reg) (s : State) : Result :=
  readX s rs1 fun a => readX s rs2 fun v => requireAligned a n <|
    if s.resv = some a then
      memWrite s a n v fun s => writeX (s.setResv none) rd 0 fun s => advance s 4
    else
      writeX (s.setResv none) rd 1 fun s => advance s 4

/-- AMO: read, compute, write, and give the destination the old value, sign-extended (R221, R224 to R243). -/
def amo (m n : Nat) (g : BitVec m → BitVec m → BitVec m) (rd rs1 rs2 : Reg) (s : State) : Result :=
  readX s rs1 fun a => readX s rs2 fun v => requireAligned a n <| memRead s a n fun t =>
    memWrite s a n (zext64 (g (t.setWidth m) (v.setWidth m))) fun s =>
      writeX s rd (sext64 (t.setWidth m)) fun s => advance s 4

/-! ### Single-precision float, 43_float.md -/

/-- `Rm(code)`: a code that resolves to a reserved one is InvalidRoundingMode, before any register is read (R251). -/
def withRm (s : State) (code : BitVec 3) (k : RoundingMode → Result) : Result :=
  match resolveRm s.frmDyn code with
  | none => fail .invalidRoundingMode
  | some m => k m

/-- Two float sources, a float result (R259 to R268). -/
def fpu2 (rd rs1 rs2 : Reg) (g : Word32 → Word32 → Word32) (s : State) : Result :=
  readS s rs1 fun a => readS s rs2 fun b => writeS s rd (g a b) fun s => advance s 4

/-- Three float sources, a float result (R255 to R258). -/
def fpu3 (rd rs1 rs2 rs3 : Reg) (g : Word32 → Word32 → Word32 → Word32) (s : State) : Result :=
  readS s rs1 fun a => readS s rs2 fun b => readS s rs3 fun c => writeS s rd (g a b c) fun s => advance s 4

/-- One float source, a float result (R263). -/
def fpu1 (rd rs1 : Reg) (g : Word32 → Word32) (s : State) : Result :=
  readS s rs1 fun a => writeS s rd (g a) fun s => advance s 4

/-- One float source, an integer result (R269 to R275, R279, R280). -/
def fpuX1 (rd rs1 : Reg) (g : Word32 → Word) (s : State) : Result :=
  readS s rs1 fun a => writeX s rd (g a) fun s => advance s 4

/-- Two float sources, an integer result (R272 to R274). -/
def fpuX2 (rd rs1 rs2 : Reg) (g : Word32 → Word32 → Word) (s : State) : Result :=
  readS s rs1 fun a => readS s rs2 fun b => writeX s rd (g a b) fun s => advance s 4

/-- One integer source, a float result (R276 to R278, R281, R282). -/
def fpuOfX (rd rs1 : Reg) (g : Word → Word32) (s : State) : Result :=
  readX s rs1 fun a => writeS s rd (g a) fun s => advance s 4

end Sys2Proof.Machine
end

