-- ==== Sys2Proof/Machine/Alu.lean ====
section
/-! DEFINITION. Alu.lean: integer ALU operations and their W forms, 40_base_integer.md R162 to R189. -/
namespace Sys2Proof.Machine

/-- `sext_64` of the low 32 bits: how every W form writes its result (40_base_integer.md R181 to R189). -/
def sextW (v : Word) : Word := sext64 (low32 v)
/-- The 6-bit shift amount of a register (R173). -/
def shamtX (b : Word) : Nat := (b.extractLsb 5 0).toNat
/-- The 5-bit shift amount of a register (R187). -/
def shamtW (b : Word) : Nat := (b.extractLsb 4 0).toNat
/-- SLLIW and SLLW on the low 32 bits (R182, R187). -/
def sllW (a : Word) (n : Nat) : Word := sext64 (low32 a <<< n)
/-- SRLIW and SRLW on the low 32 bits (R183, R188). -/
def srlW (a : Word) (n : Nat) : Word := sext64 (low32 a >>> n)
/-- SRAIW and SRAW on the low 32 bits (R184, R189). -/
def sraW (a : Word) (n : Nat) : Word := sext64 ((low32 a).sshiftRight n)

/-- ADDI: add immediate (R162). -/
def execAddi (rd : Reg) (rs1 : Reg) (imm : BitVec 12) (s : State) : Result :=
  aluX1 4 rd rs1 (fun a => a + sext64 (immI imm)) s

/-- SLTI: set if less than, signed immediate (R163). -/
def execSlti (rd : Reg) (rs1 : Reg) (imm : BitVec 12) (s : State) : Result :=
  aluX1 4 rd rs1 (fun a => boolWord (condLt a (sext64 (immI imm)))) s

/-- SLTIU: set if less than, unsigned immediate (R164). -/
def execSltiu (rd : Reg) (rs1 : Reg) (imm : BitVec 12) (s : State) : Result :=
  aluX1 4 rd rs1 (fun a => boolWord (condLtu a (sext64 (immI imm)))) s

/-- XORI: exclusive or immediate (R165). -/
def execXori (rd : Reg) (rs1 : Reg) (imm : BitVec 12) (s : State) : Result :=
  aluX1 4 rd rs1 (fun a => a ^^^ sext64 (immI imm)) s

/-- ORI: or immediate (R166). -/
def execOri (rd : Reg) (rs1 : Reg) (imm : BitVec 12) (s : State) : Result :=
  aluX1 4 rd rs1 (fun a => a ||| sext64 (immI imm)) s

/-- ANDI: and immediate (R167). -/
def execAndi (rd : Reg) (rs1 : Reg) (imm : BitVec 12) (s : State) : Result :=
  aluX1 4 rd rs1 (fun a => a &&& sext64 (immI imm)) s

/-- SLLI: shift left logical immediate (R168). -/
def execSlli (rd : Reg) (rs1 : Reg) (shamt : BitVec 6) (s : State) : Result :=
  aluX1 4 rd rs1 (fun a => a <<< shamt.toNat) s

/-- SRLI: shift right logical immediate (R169). -/
def execSrli (rd : Reg) (rs1 : Reg) (shamt : BitVec 6) (s : State) : Result :=
  aluX1 4 rd rs1 (fun a => a >>> shamt.toNat) s

/-- SRAI: shift right arithmetic immediate (R170). -/
def execSrai (rd : Reg) (rs1 : Reg) (shamt : BitVec 6) (s : State) : Result :=
  aluX1 4 rd rs1 (fun a => a.sshiftRight shamt.toNat) s

/-- ADD: add (R171). -/
def execAdd (rd : Reg) (rs1 : Reg) (rs2 : Reg) (s : State) : Result :=
  aluX2 4 rd rs1 rs2 (fun a b => a + b) s

/-- SUB: subtract (R172). -/
def execSub (rd : Reg) (rs1 : Reg) (rs2 : Reg) (s : State) : Result :=
  aluX2 4 rd rs1 rs2 (fun a b => a - b) s

/-- SLL: shift left logical (R173). -/
def execSll (rd : Reg) (rs1 : Reg) (rs2 : Reg) (s : State) : Result :=
  aluX2 4 rd rs1 rs2 (fun a b => a <<< shamtX b) s

/-- SLT: set if less than, signed (R174). -/
def execSlt (rd : Reg) (rs1 : Reg) (rs2 : Reg) (s : State) : Result :=
  aluX2 4 rd rs1 rs2 (fun a b => boolWord (condLt a b)) s

/-- SLTU: set if less than, unsigned (R175). -/
def execSltu (rd : Reg) (rs1 : Reg) (rs2 : Reg) (s : State) : Result :=
  aluX2 4 rd rs1 rs2 (fun a b => boolWord (condLtu a b)) s

/-- XOR: exclusive or (R176). -/
def execXor (rd : Reg) (rs1 : Reg) (rs2 : Reg) (s : State) : Result :=
  aluX2 4 rd rs1 rs2 (fun a b => a ^^^ b) s

/-- SRL: shift right logical (R177). -/
def execSrl (rd : Reg) (rs1 : Reg) (rs2 : Reg) (s : State) : Result :=
  aluX2 4 rd rs1 rs2 (fun a b => a >>> shamtX b) s

/-- SRA: shift right arithmetic (R178). -/
def execSra (rd : Reg) (rs1 : Reg) (rs2 : Reg) (s : State) : Result :=
  aluX2 4 rd rs1 rs2 (fun a b => a.sshiftRight (shamtX b)) s

/-- OR: or (R179). -/
def execOr (rd : Reg) (rs1 : Reg) (rs2 : Reg) (s : State) : Result :=
  aluX2 4 rd rs1 rs2 (fun a b => a ||| b) s

/-- AND: and (R180). -/
def execAnd (rd : Reg) (rs1 : Reg) (rs2 : Reg) (s : State) : Result :=
  aluX2 4 rd rs1 rs2 (fun a b => a &&& b) s

/-- ADDIW: add immediate, 32-bit (R181). -/
def execAddiw (rd : Reg) (rs1 : Reg) (imm : BitVec 12) (s : State) : Result :=
  aluX1 4 rd rs1 (fun a => sextW (a + sext64 (immI imm))) s

/-- SLLIW: shift left logical immediate, 32-bit (R182). -/
def execSlliw (rd : Reg) (rs1 : Reg) (shamt : BitVec 5) (s : State) : Result :=
  aluX1 4 rd rs1 (fun a => sllW a shamt.toNat) s

/-- SRLIW: shift right logical immediate, 32-bit (R183). -/
def execSrliw (rd : Reg) (rs1 : Reg) (shamt : BitVec 5) (s : State) : Result :=
  aluX1 4 rd rs1 (fun a => srlW a shamt.toNat) s

/-- SRAIW: shift right arithmetic immediate, 32-bit (R184). -/
def execSraiw (rd : Reg) (rs1 : Reg) (shamt : BitVec 5) (s : State) : Result :=
  aluX1 4 rd rs1 (fun a => sraW a shamt.toNat) s

/-- ADDW: add, 32-bit (R185). -/
def execAddw (rd : Reg) (rs1 : Reg) (rs2 : Reg) (s : State) : Result :=
  aluX2 4 rd rs1 rs2 (fun a b => sextW (a + b)) s

/-- SUBW: subtract, 32-bit (R186). -/
def execSubw (rd : Reg) (rs1 : Reg) (rs2 : Reg) (s : State) : Result :=
  aluX2 4 rd rs1 rs2 (fun a b => sextW (a - b)) s

/-- SLLW: shift left logical, 32-bit (R187). -/
def execSllw (rd : Reg) (rs1 : Reg) (rs2 : Reg) (s : State) : Result :=
  aluX2 4 rd rs1 rs2 (fun a b => sllW a (shamtW b)) s

/-- SRLW: shift right logical, 32-bit (R188). -/
def execSrlw (rd : Reg) (rs1 : Reg) (rs2 : Reg) (s : State) : Result :=
  aluX2 4 rd rs1 rs2 (fun a b => srlW a (shamtW b)) s

/-- SRAW: shift right arithmetic, 32-bit (R189). -/
def execSraw (rd : Reg) (rs1 : Reg) (rs2 : Reg) (s : State) : Result :=
  aluX2 4 rd rs1 rs2 (fun a b => sraW a (shamtW b)) s

end Sys2Proof.Machine
end

