-- ==== Sys2Proof/Machine/Atomics.lean ====
section
/-! DEFINITION. Atomics.lean: load-reserved, store-conditional and the AMOs, 42_atomics.md R222 to R245. aq and rl change nothing (R220). -/
namespace Sys2Proof.Machine

/-! The AMO operations on the old value `t` and the register value `v`, both of the access width (R244). -/

/-- AMOSWAP: `v`. -/
def amoSwap {m : Nat} (_t v : BitVec m) : BitVec m := v
/-- AMOADD: `t + v`, wrapping. -/
def amoAdd {m : Nat} (t v : BitVec m) : BitVec m := t + v
/-- AMOXOR: `t ^ v`. -/
def amoXor {m : Nat} (t v : BitVec m) : BitVec m := t ^^^ v
/-- AMOAND: `t & v`. -/
def amoAnd {m : Nat} (t v : BitVec m) : BitVec m := t &&& v
/-- AMOOR: `t | v`. -/
def amoOr {m : Nat} (t v : BitVec m) : BitVec m := t ||| v
/-- AMOMIN: the signed minimum. -/
def amoMin {m : Nat} (t v : BitVec m) : BitVec m := if t.toInt ≤ v.toInt then t else v
/-- AMOMAX: the signed maximum. -/
def amoMax {m : Nat} (t v : BitVec m) : BitVec m := if v.toInt ≤ t.toInt then t else v
/-- AMOMINU: the unsigned minimum. -/
def amoMinu {m : Nat} (t v : BitVec m) : BitVec m := if t.toNat ≤ v.toNat then t else v
/-- AMOMAXU: the unsigned maximum. -/
def amoMaxu {m : Nat} (t v : BitVec m) : BitVec m := if v.toNat ≤ t.toNat then t else v

/-- LR.W: load-reserved word (R222). -/
def execLrW (rd : Reg) (rs1 : Reg) (_aqrl : BitVec 2) (s : State) : Result :=
  loadReserved 32 4 rd rs1 s

/-- SC.W: store-conditional word (R223). -/
def execScW (rd : Reg) (rs1 : Reg) (rs2 : Reg) (_aqrl : BitVec 2) (s : State) : Result :=
  storeConditional 4 rd rs1 rs2 s

/-- AMOSWAP.W (R224). -/
def execAmoswapW (rd : Reg) (rs1 : Reg) (rs2 : Reg) (_aqrl : BitVec 2) (s : State) : Result :=
  amo 32 4 amoSwap rd rs1 rs2 s

/-- AMOADD.W (R225). -/
def execAmoaddW (rd : Reg) (rs1 : Reg) (rs2 : Reg) (_aqrl : BitVec 2) (s : State) : Result :=
  amo 32 4 amoAdd rd rs1 rs2 s

/-- AMOXOR.W (R226). -/
def execAmoxorW (rd : Reg) (rs1 : Reg) (rs2 : Reg) (_aqrl : BitVec 2) (s : State) : Result :=
  amo 32 4 amoXor rd rs1 rs2 s

/-- AMOAND.W (R227). -/
def execAmoandW (rd : Reg) (rs1 : Reg) (rs2 : Reg) (_aqrl : BitVec 2) (s : State) : Result :=
  amo 32 4 amoAnd rd rs1 rs2 s

/-- AMOOR.W (R228). -/
def execAmoorW (rd : Reg) (rs1 : Reg) (rs2 : Reg) (_aqrl : BitVec 2) (s : State) : Result :=
  amo 32 4 amoOr rd rs1 rs2 s

/-- AMOMIN.W (R229). -/
def execAmominW (rd : Reg) (rs1 : Reg) (rs2 : Reg) (_aqrl : BitVec 2) (s : State) : Result :=
  amo 32 4 amoMin rd rs1 rs2 s

/-- AMOMAX.W (R230). -/
def execAmomaxW (rd : Reg) (rs1 : Reg) (rs2 : Reg) (_aqrl : BitVec 2) (s : State) : Result :=
  amo 32 4 amoMax rd rs1 rs2 s

/-- AMOMINU.W (R231). -/
def execAmominuW (rd : Reg) (rs1 : Reg) (rs2 : Reg) (_aqrl : BitVec 2) (s : State) : Result :=
  amo 32 4 amoMinu rd rs1 rs2 s

/-- AMOMAXU.W (R232). -/
def execAmomaxuW (rd : Reg) (rs1 : Reg) (rs2 : Reg) (_aqrl : BitVec 2) (s : State) : Result :=
  amo 32 4 amoMaxu rd rs1 rs2 s

/-- LR.D: load-reserved doubleword (R233). -/
def execLrD (rd : Reg) (rs1 : Reg) (_aqrl : BitVec 2) (s : State) : Result :=
  loadReserved 64 8 rd rs1 s

/-- SC.D: store-conditional doubleword (R234). -/
def execScD (rd : Reg) (rs1 : Reg) (rs2 : Reg) (_aqrl : BitVec 2) (s : State) : Result :=
  storeConditional 8 rd rs1 rs2 s

/-- AMOSWAP.D (R235). -/
def execAmoswapD (rd : Reg) (rs1 : Reg) (rs2 : Reg) (_aqrl : BitVec 2) (s : State) : Result :=
  amo 64 8 amoSwap rd rs1 rs2 s

/-- AMOADD.D (R236). -/
def execAmoaddD (rd : Reg) (rs1 : Reg) (rs2 : Reg) (_aqrl : BitVec 2) (s : State) : Result :=
  amo 64 8 amoAdd rd rs1 rs2 s

/-- AMOXOR.D (R237). -/
def execAmoxorD (rd : Reg) (rs1 : Reg) (rs2 : Reg) (_aqrl : BitVec 2) (s : State) : Result :=
  amo 64 8 amoXor rd rs1 rs2 s

/-- AMOAND.D (R238). -/
def execAmoandD (rd : Reg) (rs1 : Reg) (rs2 : Reg) (_aqrl : BitVec 2) (s : State) : Result :=
  amo 64 8 amoAnd rd rs1 rs2 s

/-- AMOOR.D (R239). -/
def execAmoorD (rd : Reg) (rs1 : Reg) (rs2 : Reg) (_aqrl : BitVec 2) (s : State) : Result :=
  amo 64 8 amoOr rd rs1 rs2 s

/-- AMOMIN.D (R240). -/
def execAmominD (rd : Reg) (rs1 : Reg) (rs2 : Reg) (_aqrl : BitVec 2) (s : State) : Result :=
  amo 64 8 amoMin rd rs1 rs2 s

/-- AMOMAX.D (R241). -/
def execAmomaxD (rd : Reg) (rs1 : Reg) (rs2 : Reg) (_aqrl : BitVec 2) (s : State) : Result :=
  amo 64 8 amoMax rd rs1 rs2 s

/-- AMOMINU.D (R242). -/
def execAmominuD (rd : Reg) (rs1 : Reg) (rs2 : Reg) (_aqrl : BitVec 2) (s : State) : Result :=
  amo 64 8 amoMinu rd rs1 rs2 s

/-- AMOMAXU.D (R243). -/
def execAmomaxuD (rd : Reg) (rs1 : Reg) (rs2 : Reg) (_aqrl : BitVec 2) (s : State) : Result :=
  amo 64 8 amoMaxu rd rs1 rs2 s

end Sys2Proof.Machine
end

