-- ==== Sys2Proof/Machine/Compressed.lean ====
section
/-! DEFINITION. Compressed.lean: the compressed instructions, 44_compressed.md R305 to R337: each is its expansion with width 2 (R300,
R302), or the sentinel its operand values select (R338, 45_sentinels.md R352 to R355). -/
namespace Sys2Proof.Machine

/-- C.ADDI4SPN: ADDI rd', x2; immediate 0 is RESERVED (R305). -/
def execCAddi4spn (rd' : CReg) (nzuimm : BitVec 8) (s : State) : Result :=
  if nzuimm = 0 then raise .decodeFailure
  else aluX1 2 (xr' rd') 2 (fun a => a + sext64 (cImm4spn nzuimm)) s

/-- C.LW: LW (R306). -/
def execCLw (rd' : CReg) (rs1' : CReg) (uimm : BitVec 5) (s : State) : Result :=
  loadX 2 (xr' rd') (xr' rs1') (cOffW uimm) 4 (fun v => sext64 (low32 v)) s

/-- C.LD: LD (R307). -/
def execCLd (rd' : CReg) (rs1' : CReg) (uimm : BitVec 5) (s : State) : Result :=
  loadX 2 (xr' rd') (xr' rs1') (cOffD uimm) 8 id s

/-- C.SW: SW (R308). -/
def execCSw (rs1' : CReg) (rs2' : CReg) (uimm : BitVec 5) (s : State) : Result :=
  storeX 2 (xr' rs1') (xr' rs2') (cOffW uimm) 4 s

/-- C.SD: SD (R309). -/
def execCSd (rs1' : CReg) (rs2' : CReg) (uimm : BitVec 5) (s : State) : Result :=
  storeX 2 (xr' rs1') (xr' rs2') (cOffD uimm) 8 s

/-- C.NOP: the NOP sentinel (R310). -/
def execCNop (s : State) : Result :=
  hint s

/-- C.ADDI: ADDI rd, rd; rd = 0 or immediate 0 is a HINT (R311). -/
def execCAddi (rd : Reg) (imm : BitVec 6) (s : State) : Result :=
  if rd = 0 ∨ imm = 0 then hint s
  else aluX1 2 rd rd (fun a => a + sext64 (cImm imm)) s

/-- C.ADDIW: ADDIW rd, rd; rd = 0 is RESERVED (R312). -/
def execCAddiw (rd : Reg) (imm : BitVec 6) (s : State) : Result :=
  if rd = 0 then raise .decodeFailure
  else aluX1 2 rd rd (fun a => sextW (a + sext64 (cImm imm))) s

/-- C.LI: ADDI rd, x0; rd = 0 is a HINT (R313). -/
def execCLi (rd : Reg) (imm : BitVec 6) (s : State) : Result :=
  if rd = 0 then hint s
  else aluX1 2 rd 0 (fun a => a + sext64 (cImm imm)) s

/-- C.ADDI16SP: ADDI x2, x2; immediate 0 is RESERVED (R314). -/
def execCAddi16sp (imm : BitVec 6) (s : State) : Result :=
  if imm = 0 then raise .decodeFailure
  else aluX1 2 2 2 (fun a => a + sext64 (cImm16sp imm)) s

/-- C.LUI: LUI; immediate 0 is RESERVED, tested first; rd = 0 is a HINT (R315). -/
def execCLui (rd : Reg) (imm : BitVec 6) (s : State) : Result :=
  if imm = 0 then raise .decodeFailure
  else if rd = 0 then hint s
  else aluX0 2 rd (sext64 (cImmLui imm)) s

/-- C.SRLI: SRLI rd', rd'; shift amount 0 is a HINT (R316). -/
def execCSrli (rd' : CReg) (shamt : BitVec 6) (s : State) : Result :=
  if shamt = 0 then hint s
  else aluX1 2 (xr' rd') (xr' rd') (fun a => a >>> shamt.toNat) s

/-- C.SRAI: SRAI rd', rd'; shift amount 0 is a HINT (R317). -/
def execCSrai (rd' : CReg) (shamt : BitVec 6) (s : State) : Result :=
  if shamt = 0 then hint s
  else aluX1 2 (xr' rd') (xr' rd') (fun a => a.sshiftRight shamt.toNat) s

/-- C.ANDI: ANDI rd', rd' (R318). -/
def execCAndi (rd' : CReg) (imm : BitVec 6) (s : State) : Result :=
  aluX1 2 (xr' rd') (xr' rd') (fun a => a &&& sext64 (cImm imm)) s

/-- C.SUB: SUB rd', rd', rs2' (R319). -/
def execCSub (rd' : CReg) (rs2' : CReg) (s : State) : Result :=
  aluX2 2 (xr' rd') (xr' rd') (xr' rs2') (fun a b => a - b) s

/-- C.XOR: XOR rd', rd', rs2' (R320). -/
def execCXor (rd' : CReg) (rs2' : CReg) (s : State) : Result :=
  aluX2 2 (xr' rd') (xr' rd') (xr' rs2') (fun a b => a ^^^ b) s

/-- C.OR: OR rd', rd', rs2' (R321). -/
def execCOr (rd' : CReg) (rs2' : CReg) (s : State) : Result :=
  aluX2 2 (xr' rd') (xr' rd') (xr' rs2') (fun a b => a ||| b) s

/-- C.AND: AND rd', rd', rs2' (R322). -/
def execCAnd (rd' : CReg) (rs2' : CReg) (s : State) : Result :=
  aluX2 2 (xr' rd') (xr' rd') (xr' rs2') (fun a b => a &&& b) s

/-- C.SUBW: SUBW rd', rd', rs2' (R323). -/
def execCSubw (rd' : CReg) (rs2' : CReg) (s : State) : Result :=
  aluX2 2 (xr' rd') (xr' rd') (xr' rs2') (fun a b => sextW (a - b)) s

/-- C.ADDW: ADDW rd', rd', rs2' (R324). -/
def execCAddw (rd' : CReg) (rs2' : CReg) (s : State) : Result :=
  aluX2 2 (xr' rd') (xr' rd') (xr' rs2') (fun a b => sextW (a + b)) s

/-- C.J: JAL x0 (R325). -/
def execCJ (off : BitVec 11) (s : State) : Result :=
  jump 2 0 (sext64 (cOffJump off)) s

/-- C.BEQZ: BEQ rs1', x0 (R326). -/
def execCBeqz (rs1' : CReg) (off : BitVec 8) (s : State) : Result :=
  branch 2 (xr' rs1') 0 (sext64 (cOffBranch off)) condEq s

/-- C.BNEZ: BNE rs1', x0 (R327). -/
def execCBnez (rs1' : CReg) (off : BitVec 8) (s : State) : Result :=
  branch 2 (xr' rs1') 0 (sext64 (cOffBranch off)) condNe s

/-- C.SLLI: SLLI rd, rd; rd = 0 or shift amount 0 is a HINT (R328). -/
def execCSlli (rd : Reg) (shamt : BitVec 6) (s : State) : Result :=
  if rd = 0 ∨ shamt = 0 then hint s
  else aluX1 2 rd rd (fun a => a <<< shamt.toNat) s

/-- C.LWSP: LW rd, x2; rd = 0 is RESERVED (R329). -/
def execCLwsp (rd : Reg) (uimm : BitVec 6) (s : State) : Result :=
  if rd = 0 then raise .decodeFailure
  else loadX 2 rd 2 (cOffWsp uimm) 4 (fun v => sext64 (low32 v)) s

/-- C.LDSP: LD rd, x2; rd = 0 is RESERVED (R330). -/
def execCLdsp (rd : Reg) (uimm : BitVec 6) (s : State) : Result :=
  if rd = 0 then raise .decodeFailure
  else loadX 2 rd 2 (cOffDsp uimm) 8 id s

/-- C.JR: JALR x0, 0(rs1); rs1 = 0 is RESERVED (R331). -/
def execCJr (rs1 : Reg) (s : State) : Result :=
  if rs1 = 0 then raise .decodeFailure
  else jumpReg 2 0 rs1 0 s

/-- C.MV: ADD rd, x0, rs2; rd = 0 is a HINT (R332). -/
def execCMv (rd : Reg) (rs2 : Reg) (s : State) : Result :=
  if rd = 0 then hint s
  else aluX2 2 rd 0 rs2 (fun a b => a + b) s

/-- C.EBREAK: the EBREAK sentinel, outcome DEBUG_TRAP (R333). -/
def execCEbreak (_s : State) : Result :=
  raise .debugTrap

/-- C.JALR: JALR x1, 0(rs1), linking `pc + 2` (R334). -/
def execCJalr (rs1 : Reg) (s : State) : Result :=
  jumpReg 2 1 rs1 0 s

/-- C.ADD: ADD rd, rd, rs2; rd = 0 is a HINT (R335). -/
def execCAdd (rd : Reg) (rs2 : Reg) (s : State) : Result :=
  if rd = 0 then hint s
  else aluX2 2 rd rd rs2 (fun a b => a + b) s

/-- C.SWSP: SW rs2, x2 (R336). -/
def execCSwsp (rs2 : Reg) (uimm : BitVec 6) (s : State) : Result :=
  storeX 2 2 rs2 (cOffWsp uimm) 4 s

/-- C.SDSP: SD rs2, x2 (R337). -/
def execCSdsp (rs2 : Reg) (uimm : BitVec 6) (s : State) : Result :=
  storeX 2 2 rs2 (cOffDsp uimm) 8 s

end Sys2Proof.Machine
end

