-- ==== Sys2Proof/Machine/Control.lean ====
section
/-! DEFINITION. Control.lean: upper immediates, jumps and branches, 40_base_integer.md R141 to R150. -/
namespace Sys2Proof.Machine

/-- LUI: `x[rd] <- sext_64(imm)` (R141). -/
def execLui (rd : Reg) (imm : BitVec 20) (s : State) : Result :=
  aluX0 4 rd (sext64 (immU imm)) s

/-- AUIPC: `x[rd] <- pc + sext_64(imm)` (R142). -/
def execAuipc (rd : Reg) (imm : BitVec 20) (s : State) : Result :=
  pcRel 4 rd (sext64 (immU imm)) s

/-- JAL: link `pc + 4`, jump by the offset (R143). -/
def execJal (rd : Reg) (off : BitVec 20) (s : State) : Result :=
  jump 4 rd (sext64 (immJ off)) s

/-- JALR: link `pc + 4`, jump to `(x[rs1] + imm)` with bit 0 cleared (R144). -/
def execJalr (rd : Reg) (rs1 : Reg) (imm : BitVec 12) (s : State) : Result :=
  jumpReg 4 rd rs1 (sext64 (immI imm)) s

/-- BEQ: branch if equal (R145). -/
def execBeq (rs1 : Reg) (rs2 : Reg) (off : BitVec 12) (s : State) : Result :=
  branch 4 rs1 rs2 (sext64 (immB off)) condEq s

/-- BNE: branch if not equal (R146). -/
def execBne (rs1 : Reg) (rs2 : Reg) (off : BitVec 12) (s : State) : Result :=
  branch 4 rs1 rs2 (sext64 (immB off)) condNe s

/-- BLT: branch if less than, signed (R147). -/
def execBlt (rs1 : Reg) (rs2 : Reg) (off : BitVec 12) (s : State) : Result :=
  branch 4 rs1 rs2 (sext64 (immB off)) condLt s

/-- BGE: branch if greater or equal, signed (R148). -/
def execBge (rs1 : Reg) (rs2 : Reg) (off : BitVec 12) (s : State) : Result :=
  branch 4 rs1 rs2 (sext64 (immB off)) condGe s

/-- BLTU: branch if less than, unsigned (R149). -/
def execBltu (rs1 : Reg) (rs2 : Reg) (off : BitVec 12) (s : State) : Result :=
  branch 4 rs1 rs2 (sext64 (immB off)) condLtu s

/-- BGEU: branch if greater or equal, unsigned (R150). -/
def execBgeu (rs1 : Reg) (rs2 : Reg) (off : BitVec 12) (s : State) : Result :=
  branch 4 rs1 rs2 (sext64 (immB off)) condGeu s

end Sys2Proof.Machine
end

