-- ==== Sys2Proof/Machine/Float.lean ====
section
/-! DEFINITION. Float.lean: single-precision float, 43_float.md R253 to R282. -/
namespace Sys2Proof.Machine

/-- FLW: load word into a float register, the bits kept as they are (R253). -/
def execFlw (rd : Reg) (rs1 : Reg) (imm : BitVec 12) (s : State) : Result :=
  readX s rs1 fun a => memRead s (effAddr a (immI imm)) 4 fun v =>
    writeS s rd (low32 v) fun s => advance s 4

/-- FSW: store the low word of a float register, unchecked (R254). -/
def execFsw (rs1 : Reg) (rs2 : Reg) (imm : BitVec 12) (s : State) : Result :=
  readX s rs1 fun a => readF s rs2 fun v =>
    memWrite s (effAddr a (immI imm)) 4 (zext64 (nanUnBox v)) fun s => advance s 4

/-- FMADD.S: `(a * b) + c`, rounded once (R255). -/
def execFmaddS (rd : Reg) (rs1 : Reg) (rs2 : Reg) (rs3 : Reg) (rm : BitVec 3) (s : State) : Result :=
  withRm s rm fun m => fpu3 rd rs1 rs2 rs3 (fun a b c => fMulAdd m a b c) s

/-- FMSUB.S: `(a * b) - c`, rounded once (R256). -/
def execFmsubS (rd : Reg) (rs1 : Reg) (rs2 : Reg) (rs3 : Reg) (rm : BitVec 3) (s : State) : Result :=
  withRm s rm fun m => fpu3 rd rs1 rs2 rs3 (fun a b c => fMulAdd m a b (fNeg c)) s

/-- FNMSUB.S: `-(a * b) + c`, rounded once (R257). -/
def execFnmsubS (rd : Reg) (rs1 : Reg) (rs2 : Reg) (rs3 : Reg) (rm : BitVec 3) (s : State) : Result :=
  withRm s rm fun m => fpu3 rd rs1 rs2 rs3 (fun a b c => fMulAdd m (fNeg a) b c) s

/-- FNMADD.S: `-(a * b) - c`, rounded once (R258). -/
def execFnmaddS (rd : Reg) (rs1 : Reg) (rs2 : Reg) (rs3 : Reg) (rm : BitVec 3) (s : State) : Result :=
  withRm s rm fun m => fpu3 rd rs1 rs2 rs3 (fun a b c => fMulAdd m (fNeg a) b (fNeg c)) s

/-- FADD.S: `a + b` (R259). -/
def execFaddS (rd : Reg) (rs1 : Reg) (rs2 : Reg) (rm : BitVec 3) (s : State) : Result :=
  withRm s rm fun m => fpu2 rd rs1 rs2 (fAdd m) s

/-- FSUB.S: `a - b` (R260). -/
def execFsubS (rd : Reg) (rs1 : Reg) (rs2 : Reg) (rm : BitVec 3) (s : State) : Result :=
  withRm s rm fun m => fpu2 rd rs1 rs2 (fSub m) s

/-- FMUL.S: `a * b` (R261). -/
def execFmulS (rd : Reg) (rs1 : Reg) (rs2 : Reg) (rm : BitVec 3) (s : State) : Result :=
  withRm s rm fun m => fpu2 rd rs1 rs2 (fMul m) s

/-- FDIV.S: `a / b` (R262). -/
def execFdivS (rd : Reg) (rs1 : Reg) (rs2 : Reg) (rm : BitVec 3) (s : State) : Result :=
  withRm s rm fun m => fpu2 rd rs1 rs2 (fDiv m) s

/-- FSQRT.S: square root (R263). -/
def execFsqrtS (rd : Reg) (rs1 : Reg) (rm : BitVec 3) (s : State) : Result :=
  withRm s rm fun m => fpu1 rd rs1 (fSqrt m) s

/-- FSGNJ.S: sign injection (R264). -/
def execFsgnjS (rd : Reg) (rs1 : Reg) (rs2 : Reg) (s : State) : Result :=
  fpu2 rd rs1 rs2 fSgnj s

/-- FSGNJN.S: negated sign injection (R265). -/
def execFsgnjnS (rd : Reg) (rs1 : Reg) (rs2 : Reg) (s : State) : Result :=
  fpu2 rd rs1 rs2 fSgnjn s

/-- FSGNJX.S: exclusive-or sign injection (R266). -/
def execFsgnjxS (rd : Reg) (rs1 : Reg) (rs2 : Reg) (s : State) : Result :=
  fpu2 rd rs1 rs2 fSgnjx s

/-- FMIN.S: minimum (R267). -/
def execFminS (rd : Reg) (rs1 : Reg) (rs2 : Reg) (s : State) : Result :=
  fpu2 rd rs1 rs2 fMin s

/-- FMAX.S: maximum (R268). -/
def execFmaxS (rd : Reg) (rs1 : Reg) (rs2 : Reg) (s : State) : Result :=
  fpu2 rd rs1 rs2 fMax s

/-- FCVT.W.S: to a signed 32-bit integer, written sign-extended (R269). -/
def execFcvtWS (rd : Reg) (rs1 : Reg) (rm : BitVec 3) (s : State) : Result :=
  withRm s rm fun m => fpuX1 rd rs1 (fun a => sext64 (BitVec.ofInt 32 (fToInt m (-2 ^ 31) (2 ^ 31 - 1) a))) s

/-- FCVT.WU.S: to an unsigned 32-bit integer, written sign-extended (R270). -/
def execFcvtWuS (rd : Reg) (rs1 : Reg) (rm : BitVec 3) (s : State) : Result :=
  withRm s rm fun m => fpuX1 rd rs1 (fun a => sext64 (BitVec.ofInt 32 (fToInt m (0) (2 ^ 32 - 1) a))) s

/-- FMV.X.W: the low word of a float register, unchecked, sign-extended (R271). -/
def execFmvXW (rd : Reg) (rs1 : Reg) (s : State) : Result :=
  readF s rs1 fun v => writeX s rd (sext64 (nanUnBox v)) fun s => advance s 4

/-- FEQ.S: compare, equal (R272). -/
def execFeqS (rd : Reg) (rs1 : Reg) (rs2 : Reg) (s : State) : Result :=
  fpuX2 rd rs1 rs2 (fun a b => boolWord (fEq a b)) s

/-- FLT.S: compare, less than (R273). -/
def execFltS (rd : Reg) (rs1 : Reg) (rs2 : Reg) (s : State) : Result :=
  fpuX2 rd rs1 rs2 (fun a b => boolWord (fLt a b)) s

/-- FLE.S: compare, less than or equal (R274). -/
def execFleS (rd : Reg) (rs1 : Reg) (rs2 : Reg) (s : State) : Result :=
  fpuX2 rd rs1 rs2 (fun a b => boolWord (fLe a b)) s

/-- FCLASS.S: classify (R275). -/
def execFclassS (rd : Reg) (rs1 : Reg) (s : State) : Result :=
  fpuX1 rd rs1 fClass s

/-- FCVT.S.W: from a signed 32-bit integer (R276). -/
def execFcvtSW (rd : Reg) (rs1 : Reg) (rm : BitVec 3) (s : State) : Result :=
  withRm s rm fun m => fpuOfX rd rs1 (fun a => fOfInt m (low32 a).toInt) s

/-- FCVT.S.WU: from an unsigned 32-bit integer (R277). -/
def execFcvtSWu (rd : Reg) (rs1 : Reg) (rm : BitVec 3) (s : State) : Result :=
  withRm s rm fun m => fpuOfX rd rs1 (fun a => fOfInt m (low32 a).toNat) s

/-- FMV.W.X: the low word of an integer register, boxed (R278). -/
def execFmvWX (rd : Reg) (rs1 : Reg) (s : State) : Result :=
  fpuOfX rd rs1 low32 s

/-- FCVT.L.S: to a signed 64-bit integer (R279). -/
def execFcvtLS (rd : Reg) (rs1 : Reg) (rm : BitVec 3) (s : State) : Result :=
  withRm s rm fun m => fpuX1 rd rs1 (fun a => BitVec.ofInt 64 (fToInt m (-2 ^ 63) (2 ^ 63 - 1) a)) s

/-- FCVT.LU.S: to an unsigned 64-bit integer (R280). -/
def execFcvtLuS (rd : Reg) (rs1 : Reg) (rm : BitVec 3) (s : State) : Result :=
  withRm s rm fun m => fpuX1 rd rs1 (fun a => BitVec.ofInt 64 (fToInt m (0) (2 ^ 64 - 1) a)) s

/-- FCVT.S.L: from a signed 64-bit integer (R281). -/
def execFcvtSL (rd : Reg) (rs1 : Reg) (rm : BitVec 3) (s : State) : Result :=
  withRm s rm fun m => fpuOfX rd rs1 (fun a => fOfInt m a.toInt) s

/-- FCVT.S.LU: from an unsigned 64-bit integer (R282). -/
def execFcvtSLu (rd : Reg) (rs1 : Reg) (rm : BitVec 3) (s : State) : Result :=
  withRm s rm fun m => fpuOfX rd rs1 (fun a => fOfInt m a.toNat) s

end Sys2Proof.Machine
end

