-- ==== Sys2Proof/Machine/LoadStore.lean ====
section
/-! DEFINITION. LoadStore.lean: integer loads and stores, 40_base_integer.md R151 to R161. No alignment is asked (20_memory.md R54). -/
namespace Sys2Proof.Machine

/-- LB: load byte, sign-extended (R151). -/
def execLb (rd : Reg) (rs1 : Reg) (imm : BitVec 12) (s : State) : Result :=
  loadX 4 rd rs1 (immI imm) 1 (fun v => sext64 (v.setWidth 8)) s

/-- LH: load halfword, sign-extended (R152). -/
def execLh (rd : Reg) (rs1 : Reg) (imm : BitVec 12) (s : State) : Result :=
  loadX 4 rd rs1 (immI imm) 2 (fun v => sext64 (v.setWidth 16)) s

/-- LW: load word, sign-extended (R153). -/
def execLw (rd : Reg) (rs1 : Reg) (imm : BitVec 12) (s : State) : Result :=
  loadX 4 rd rs1 (immI imm) 4 (fun v => sext64 (low32 v)) s

/-- LD: load doubleword (R154). -/
def execLd (rd : Reg) (rs1 : Reg) (imm : BitVec 12) (s : State) : Result :=
  loadX 4 rd rs1 (immI imm) 8 id s

/-- LBU: load byte, zero-extended (R155). -/
def execLbu (rd : Reg) (rs1 : Reg) (imm : BitVec 12) (s : State) : Result :=
  loadX 4 rd rs1 (immI imm) 1 id s

/-- LHU: load halfword, zero-extended (R156). -/
def execLhu (rd : Reg) (rs1 : Reg) (imm : BitVec 12) (s : State) : Result :=
  loadX 4 rd rs1 (immI imm) 2 id s

/-- LWU: load word, zero-extended (R157). -/
def execLwu (rd : Reg) (rs1 : Reg) (imm : BitVec 12) (s : State) : Result :=
  loadX 4 rd rs1 (immI imm) 4 id s

/-- SB: store byte (R158). -/
def execSb (rs1 : Reg) (rs2 : Reg) (imm : BitVec 12) (s : State) : Result :=
  storeX 4 rs1 rs2 (immI imm) 1 s

/-- SH: store halfword (R159). -/
def execSh (rs1 : Reg) (rs2 : Reg) (imm : BitVec 12) (s : State) : Result :=
  storeX 4 rs1 rs2 (immI imm) 2 s

/-- SW: store word (R160). -/
def execSw (rs1 : Reg) (rs2 : Reg) (imm : BitVec 12) (s : State) : Result :=
  storeX 4 rs1 rs2 (immI imm) 4 s

/-- SD: store doubleword (R161). -/
def execSd (rs1 : Reg) (rs2 : Reg) (imm : BitVec 12) (s : State) : Result :=
  storeX 4 rs1 rs2 (immI imm) 8 s

end Sys2Proof.Machine
end

