-- ==== Sys2Proof/Machine/MulDiv.lean ====
section
/-! DEFINITION. MulDiv.lean: multiply and divide, 41_muldiv.md R201 to R214. No operand makes an instruction of this file fail (R200). -/
namespace Sys2Proof.Machine

/-- Bits 127:64 of an exact product (R202 to R204). -/
def mulHigh (p : Int) : Word := (BitVec.ofInt 128 p).extractLsb 127 64

/-- The signed quotient of R205 and R210 in width `n`: all ones for a zero divisor, the dividend on overflow, else
rounded toward zero. -/
def divS {n : Nat} (a b : BitVec n) : BitVec n :=
  if b = 0 then BitVec.allOnes n
  else if a = BitVec.intMin n ∧ b = BitVec.allOnes n then BitVec.intMin n
  else BitVec.ofInt n (a.toInt.tdiv b.toInt)

/-- The unsigned quotient of R206 and R211 in width `n`: all ones for a zero divisor. -/
def divU {n : Nat} (a b : BitVec n) : BitVec n :=
  if b = 0 then BitVec.allOnes n else BitVec.ofNat n (a.toNat / b.toNat)

/-- The signed remainder of R207 and R212 in width `n`: the dividend for a zero divisor, 0 on overflow, else
`a - b * trunc(a / b)`, with the sign of the dividend. -/
def remS {n : Nat} (a b : BitVec n) : BitVec n :=
  if b = 0 then a
  else if a = BitVec.intMin n ∧ b = BitVec.allOnes n then 0
  else BitVec.ofInt n (a.toInt - b.toInt * a.toInt.tdiv b.toInt)

/-- The unsigned remainder of R208 and R213 in width `n`: the dividend for a zero divisor. -/
def remU {n : Nat} (a b : BitVec n) : BitVec n :=
  if b = 0 then a else BitVec.ofNat n (a.toNat % b.toNat)

/-- MUL: multiply, low 64 bits (R201). -/
def execMul (rd : Reg) (rs1 : Reg) (rs2 : Reg) (s : State) : Result :=
  aluX2 4 rd rs1 rs2 (fun a b => a * b) s

/-- MULH: multiply, high 64 bits, signed by signed (R202). -/
def execMulh (rd : Reg) (rs1 : Reg) (rs2 : Reg) (s : State) : Result :=
  aluX2 4 rd rs1 rs2 (fun a b => mulHigh (a.toInt * b.toInt)) s

/-- MULHSU: multiply, high 64 bits, signed by unsigned (R203). -/
def execMulhsu (rd : Reg) (rs1 : Reg) (rs2 : Reg) (s : State) : Result :=
  aluX2 4 rd rs1 rs2 (fun a b => mulHigh (a.toInt * b.toNat)) s

/-- MULHU: multiply, high 64 bits, unsigned (R204). -/
def execMulhu (rd : Reg) (rs1 : Reg) (rs2 : Reg) (s : State) : Result :=
  aluX2 4 rd rs1 rs2 (fun a b => mulHigh (a.toNat * b.toNat)) s

/-- DIV: divide, signed (R205). -/
def execDiv (rd : Reg) (rs1 : Reg) (rs2 : Reg) (s : State) : Result :=
  aluX2 4 rd rs1 rs2 (fun a b => divS a b) s

/-- DIVU: divide, unsigned (R206). -/
def execDivu (rd : Reg) (rs1 : Reg) (rs2 : Reg) (s : State) : Result :=
  aluX2 4 rd rs1 rs2 (fun a b => divU a b) s

/-- REM: remainder, signed (R207). -/
def execRem (rd : Reg) (rs1 : Reg) (rs2 : Reg) (s : State) : Result :=
  aluX2 4 rd rs1 rs2 (fun a b => remS a b) s

/-- REMU: remainder, unsigned (R208). -/
def execRemu (rd : Reg) (rs1 : Reg) (rs2 : Reg) (s : State) : Result :=
  aluX2 4 rd rs1 rs2 (fun a b => remU a b) s

/-- MULW: multiply, 32-bit (R209). -/
def execMulw (rd : Reg) (rs1 : Reg) (rs2 : Reg) (s : State) : Result :=
  aluX2 4 rd rs1 rs2 (fun a b => sext64 (low32 (a * b))) s

/-- DIVW: divide, signed, 32-bit (R210). -/
def execDivw (rd : Reg) (rs1 : Reg) (rs2 : Reg) (s : State) : Result :=
  aluX2 4 rd rs1 rs2 (fun a b => sext64 (divS (low32 a) (low32 b))) s

/-- DIVUW: divide, unsigned, 32-bit (R211). -/
def execDivuw (rd : Reg) (rs1 : Reg) (rs2 : Reg) (s : State) : Result :=
  aluX2 4 rd rs1 rs2 (fun a b => sext64 (divU (low32 a) (low32 b))) s

/-- REMW: remainder, signed, 32-bit (R212). -/
def execRemw (rd : Reg) (rs1 : Reg) (rs2 : Reg) (s : State) : Result :=
  aluX2 4 rd rs1 rs2 (fun a b => sext64 (remS (low32 a) (low32 b))) s

/-- REMUW: remainder, unsigned, 32-bit (R213). -/
def execRemuw (rd : Reg) (rs1 : Reg) (rs2 : Reg) (s : State) : Result :=
  aluX2 4 rd rs1 rs2 (fun a b => sext64 (remU (low32 a) (low32 b))) s

end Sys2Proof.Machine
end

