-- ==== Sys2Proof/Machine/Sentinels.lean ====
section
/-! DEFINITION. Sentinels.lean: the full-width breakpoint, 45_sentinels.md R353. -/
namespace Sys2Proof.Machine

/-- EBREAK: outcome DEBUG_TRAP, no access made (R353). -/
def execEbreak (_s : State) : Result := raise .debugTrap

end Sys2Proof.Machine
end

