-- ==== Sys2Proof/Machine/Step.lean ====
section
/-! DEFINITION. Step.lean: one step of a run, 70_reset_and_hazards.md R397, and the placing of one instruction word. -/
namespace Sys2Proof.Machine

/-- One step: fetch at pc, decode, execute (R397). A run goes on while steps answer `next` (60_exceptions.md R365). -/
def step (s : State) : Host.Outcome State Fault Refusal := fetchDecode s exec

/-- `s` with an instruction's bytes stored at pc, where `step` fetches (20_memory.md R66); a word shorter than four bytes
is followed by zeros. Nothing else changes: a program comes from outside, in the launch memory (log 16). -/
def State.withFetchWord (s : State) (nbits w : Nat) : State :=
  s.withMem (storeLE s.mem s.pc (BitVec.ofNat 64 (w % 2 ^ nbits)) 4)

end Sys2Proof.Machine
end

