-- ==== Sys2Proof/Machine/Effects.lean ====
section
/-! DEFINITION. Effects.lean: what the spec says an instruction may write, read off its syntax: the full-width instruction
a compressed one stands for (44_compressed.md R302), its source and destination registers, the bytes it loads and stores,
whether it takes a control transfer, an atomic, or an instruction that rounds. Statements about frames and failures cite
these; no meaning uses them. -/
namespace Sys2Proof

open Machine

/-- The "Equivalent full-width instruction" of a compressed one, with the same operands (44_compressed.md R302, R305 to
R337): none for a full-width instruction and for the sentinel forms (R338). -/
def Instr.fullWidth : Instr → Option Instr
  | .cAddi4spn rd' nzuimm => if nzuimm = 0 then none else some (.addi (xr' rd') 2 ((nzuimm ++ 0#2).setWidth 12))
  | .cLw rd' rs1' uimm => some (.lw (xr' rd') (xr' rs1') ((uimm ++ 0#2).setWidth 12))
  | .cLd rd' rs1' uimm => some (.ld (xr' rd') (xr' rs1') ((uimm ++ 0#3).setWidth 12))
  | .cSw rs1' rs2' uimm => some (.sw (xr' rs1') (xr' rs2') ((uimm ++ 0#2).setWidth 12))
  | .cSd rs1' rs2' uimm => some (.sd (xr' rs1') (xr' rs2') ((uimm ++ 0#3).setWidth 12))
  | .cNop => none
  | .cAddi rd imm => if rd = 0 ∨ imm = 0 then none else some (.addi rd rd (imm.signExtend 12))
  | .cAddiw rd imm => if rd = 0 then none else some (.addiw rd rd (imm.signExtend 12))
  | .cLi rd imm => if rd = 0 then none else some (.addi rd 0 (imm.signExtend 12))
  | .cAddi16sp imm => if imm = 0 then none else some (.addi 2 2 ((imm ++ 0#4).signExtend 12))
  | .cLui rd imm => if imm = 0 ∨ rd = 0 then none else some (.lui rd (imm.signExtend 20))
  | .cSrli rd' shamt => if shamt = 0 then none else some (.srli (xr' rd') (xr' rd') shamt)
  | .cSrai rd' shamt => if shamt = 0 then none else some (.srai (xr' rd') (xr' rd') shamt)
  | .cAndi rd' imm => some (.andi (xr' rd') (xr' rd') (imm.signExtend 12))
  | .cSub rd' rs2' => some (.sub (xr' rd') (xr' rd') (xr' rs2'))
  | .cXor rd' rs2' => some (.xor (xr' rd') (xr' rd') (xr' rs2'))
  | .cOr rd' rs2' => some (.or (xr' rd') (xr' rd') (xr' rs2'))
  | .cAnd rd' rs2' => some (.and (xr' rd') (xr' rd') (xr' rs2'))
  | .cSubw rd' rs2' => some (.subw (xr' rd') (xr' rd') (xr' rs2'))
  | .cAddw rd' rs2' => some (.addw (xr' rd') (xr' rd') (xr' rs2'))
  | .cJ off => some (.jal 0 (off.signExtend 20))
  | .cBeqz rs1' off => some (.beq (xr' rs1') 0 (off.signExtend 12))
  | .cBnez rs1' off => some (.bne (xr' rs1') 0 (off.signExtend 12))
  | .cSlli rd shamt => if rd = 0 ∨ shamt = 0 then none else some (.slli rd rd shamt)
  | .cLwsp rd uimm => if rd = 0 then none else some (.lw rd 2 ((uimm ++ 0#2).setWidth 12))
  | .cLdsp rd uimm => if rd = 0 then none else some (.ld rd 2 ((uimm ++ 0#3).setWidth 12))
  | .cJr rs1 => if rs1 = 0 then none else some (.jalr 0 rs1 0)
  | .cMv rd rs2 => if rd = 0 then none else some (.add rd 0 rs2)
  | .cEbreak => none
  | .cJalr rs1 => some (.jalr 1 rs1 0)
  | .cAdd rd rs2 => if rd = 0 then none else some (.add rd rd rs2)
  | .cSwsp rs2 uimm => some (.sw 2 rs2 ((uimm ++ 0#2).setWidth 12))
  | .cSdsp rs2 uimm => some (.sd 2 rs2 ((uimm ++ 0#3).setWidth 12))
  | _ => none

/-- The full-width instruction whose execution an instruction has: itself, or the one it stands for (R302). -/
def Instr.core (i : Instr) : Instr := i.fullWidth.getD i

/-! ### Sources -/

/-- The integer registers the pseudocode of a full-width instruction reads (40_base_integer.md to 43_float.md). -/
def Instr.xSourcesF : Instr → List Reg
  | .jalr _ rs1 _ | .lb _ rs1 _ | .lh _ rs1 _ | .lw _ rs1 _ | .ld _ rs1 _ | .lbu _ rs1 _ | .lhu _ rs1 _ | .lwu _ rs1 _
  | .addi _ rs1 _ | .slti _ rs1 _ | .sltiu _ rs1 _ | .xori _ rs1 _ | .ori _ rs1 _ | .andi _ rs1 _ | .slli _ rs1 _
  | .srli _ rs1 _ | .srai _ rs1 _ | .addiw _ rs1 _ | .slliw _ rs1 _ | .srliw _ rs1 _ | .sraiw _ rs1 _ | .lrW _ rs1 _
  | .lrD _ rs1 _ | .flw _ rs1 _ | .fsw rs1 _ _ | .fcvtSW _ rs1 _ | .fcvtSWu _ rs1 _ | .fcvtSL _ rs1 _
  | .fcvtSLu _ rs1 _ | .fmvWX _ rs1 => [rs1]
  | .beq rs1 rs2 _ | .bne rs1 rs2 _ | .blt rs1 rs2 _ | .bge rs1 rs2 _ | .bltu rs1 rs2 _ | .bgeu rs1 rs2 _
  | .sb rs1 rs2 _ | .sh rs1 rs2 _ | .sw rs1 rs2 _ | .sd rs1 rs2 _ | .add _ rs1 rs2 | .sub _ rs1 rs2 | .sll _ rs1 rs2
  | .slt _ rs1 rs2 | .sltu _ rs1 rs2 | .xor _ rs1 rs2 | .srl _ rs1 rs2 | .sra _ rs1 rs2 | .or _ rs1 rs2
  | .and _ rs1 rs2 | .addw _ rs1 rs2 | .subw _ rs1 rs2 | .sllw _ rs1 rs2 | .srlw _ rs1 rs2 | .sraw _ rs1 rs2
  | .mul _ rs1 rs2 | .mulh _ rs1 rs2 | .mulhsu _ rs1 rs2 | .mulhu _ rs1 rs2 | .div _ rs1 rs2 | .divu _ rs1 rs2
  | .rem _ rs1 rs2 | .remu _ rs1 rs2 | .mulw _ rs1 rs2 | .divw _ rs1 rs2 | .divuw _ rs1 rs2 | .remw _ rs1 rs2
  | .remuw _ rs1 rs2 | .scW _ rs1 rs2 _ | .amoswapW _ rs1 rs2 _ | .amoaddW _ rs1 rs2 _ | .amoxorW _ rs1 rs2 _
  | .amoandW _ rs1 rs2 _ | .amoorW _ rs1 rs2 _ | .amominW _ rs1 rs2 _ | .amomaxW _ rs1 rs2 _ | .amominuW _ rs1 rs2 _
  | .amomaxuW _ rs1 rs2 _ | .scD _ rs1 rs2 _ | .amoswapD _ rs1 rs2 _ | .amoaddD _ rs1 rs2 _ | .amoxorD _ rs1 rs2 _
  | .amoandD _ rs1 rs2 _ | .amoorD _ rs1 rs2 _ | .amominD _ rs1 rs2 _ | .amomaxD _ rs1 rs2 _ | .amominuD _ rs1 rs2 _
  | .amomaxuD _ rs1 rs2 _ => [rs1, rs2]
  | _ => []

/-- The float registers the pseudocode of a full-width instruction reads (43_float.md R254 to R280). -/
def Instr.fSourcesF : Instr → List Reg
  | .fsw _ rs2 _ => [rs2]
  | .fsqrtS _ rs1 _ | .fcvtWS _ rs1 _ | .fcvtWuS _ rs1 _ | .fcvtLS _ rs1 _ | .fcvtLuS _ rs1 _ | .fmvXW _ rs1
  | .fclassS _ rs1 => [rs1]
  | .faddS _ rs1 rs2 _ | .fsubS _ rs1 rs2 _ | .fmulS _ rs1 rs2 _ | .fdivS _ rs1 rs2 _ | .fsgnjS _ rs1 rs2
  | .fsgnjnS _ rs1 rs2 | .fsgnjxS _ rs1 rs2 | .fminS _ rs1 rs2 | .fmaxS _ rs1 rs2 | .feqS _ rs1 rs2 | .fltS _ rs1 rs2
  | .fleS _ rs1 rs2 => [rs1, rs2]
  | .fmaddS _ rs1 rs2 rs3 _ | .fmsubS _ rs1 rs2 rs3 _ | .fnmsubS _ rs1 rs2 rs3 _ | .fnmaddS _ rs1 rs2 rs3 _ =>
    [rs1, rs2, rs3]
  | _ => []

/-- Whether a full-width instruction reads pc as an operand: AUIPC, JAL, JALR and the branches (60_exceptions.md R363;
log 11). -/
def Instr.readsPcF : Instr → Bool
  | .auipc .. | .jal .. | .jalr .. | .beq .. | .bne .. | .blt .. | .bge .. | .bltu .. | .bgeu .. => true
  | _ => false

/-- The address and the byte count a full-width instruction reads memory at from `s` (20_memory.md R59): the effective
address of a load (R151 to R157, R253), `x[rs1]` of an LR and of an AMO (R221). -/
def Instr.loadF (s : State) : Instr → Option (Word × Nat)
  | .lb _ rs1 imm | .lbu _ rs1 imm => some (effAddr (s.getX rs1) (immI imm), 1)
  | .lh _ rs1 imm | .lhu _ rs1 imm => some (effAddr (s.getX rs1) (immI imm), 2)
  | .lw _ rs1 imm | .lwu _ rs1 imm | .flw _ rs1 imm => some (effAddr (s.getX rs1) (immI imm), 4)
  | .ld _ rs1 imm => some (effAddr (s.getX rs1) (immI imm), 8)
  | .lrW _ rs1 .. | .amoswapW _ rs1 .. | .amoaddW _ rs1 .. | .amoxorW _ rs1 .. | .amoandW _ rs1 .. | .amoorW _ rs1 ..
  | .amominW _ rs1 .. | .amomaxW _ rs1 .. | .amominuW _ rs1 .. | .amomaxuW _ rs1 .. => some (s.getX rs1, 4)
  | .lrD _ rs1 .. | .amoswapD _ rs1 .. | .amoaddD _ rs1 .. | .amoxorD _ rs1 .. | .amoandD _ rs1 .. | .amoorD _ rs1 ..
  | .amominD _ rs1 .. | .amomaxD _ rs1 .. | .amominuD _ rs1 .. | .amomaxuD _ rs1 .. => some (s.getX rs1, 8)
  | _ => none

/-- The integer registers an instruction reads; a HINT, NOP or RESERVED form reads none (45_sentinels.md R354). -/
def Instr.xSources (i : Instr) : List Reg := i.core.xSourcesF

/-- The float registers an instruction reads. -/
def Instr.fSources (i : Instr) : List Reg := i.core.fSourcesF

/-- Whether an instruction reads pc as an operand. -/
def Instr.readsPc (i : Instr) : Bool := i.core.readsPcF

/-- The address and the byte count an instruction reads memory at from `s`. -/
def Instr.load (s : State) (i : Instr) : Option (Word × Nat) := i.core.loadF s

/-! ### Destinations and effects -/

/-- The integer destination register `rd` of a full-width instruction, by its rule (R141 to R282). -/
def Instr.xDestF : Instr → Option Reg
  | .lui rd .. | .auipc rd .. | .jal rd .. | .jalr rd .. | .lb rd .. | .lh rd .. | .lw rd .. | .ld rd ..
  | .lbu rd .. | .lhu rd .. | .lwu rd .. | .addi rd .. | .slti rd .. | .sltiu rd .. | .xori rd .. | .ori rd ..
  | .andi rd .. | .slli rd .. | .srli rd .. | .srai rd .. | .add rd .. | .sub rd .. | .sll rd .. | .slt rd ..
  | .sltu rd .. | .xor rd .. | .srl rd .. | .sra rd .. | .or rd .. | .and rd .. | .addiw rd .. | .slliw rd ..
  | .srliw rd .. | .sraiw rd .. | .addw rd .. | .subw rd .. | .sllw rd .. | .srlw rd .. | .sraw rd .. | .mul rd ..
  | .mulh rd .. | .mulhsu rd .. | .mulhu rd .. | .div rd .. | .divu rd .. | .rem rd .. | .remu rd .. | .mulw rd ..
  | .divw rd .. | .divuw rd .. | .remw rd .. | .remuw rd .. | .lrW rd .. | .scW rd .. | .amoswapW rd ..
  | .amoaddW rd .. | .amoxorW rd .. | .amoandW rd .. | .amoorW rd .. | .amominW rd .. | .amomaxW rd ..
  | .amominuW rd .. | .amomaxuW rd .. | .lrD rd .. | .scD rd .. | .amoswapD rd .. | .amoaddD rd .. | .amoxorD rd ..
  | .amoandD rd .. | .amoorD rd .. | .amominD rd .. | .amomaxD rd .. | .amominuD rd .. | .amomaxuD rd ..
  | .fcvtWS rd .. | .fcvtWuS rd .. | .fmvXW rd .. | .feqS rd .. | .fltS rd .. | .fleS rd .. | .fclassS rd ..
  | .fcvtLS rd .. | .fcvtLuS rd .. => some rd
  | _ => none

/-- The float destination register `rd` of a full-width instruction, by its rule (43_float.md R253 to R282). -/
def Instr.fDestF : Instr → Option Reg
  | .flw rd .. | .fmaddS rd .. | .fmsubS rd .. | .fnmsubS rd .. | .fnmaddS rd .. | .faddS rd .. | .fsubS rd ..
  | .fmulS rd .. | .fdivS rd .. | .fsqrtS rd .. | .fsgnjS rd .. | .fsgnjnS rd .. | .fsgnjxS rd .. | .fminS rd ..
  | .fmaxS rd .. | .fcvtSW rd .. | .fcvtSWu rd .. | .fmvWX rd .. | .fcvtSL rd .. | .fcvtSLu rd .. => some rd
  | _ => none

/-- The integer destination register, if the instruction has one; a HINT or NOP has none (R354, R355). -/
def Instr.xDest (i : Instr) : Option Reg := i.core.xDestF

/-- The float destination register, if the instruction has one. -/
def Instr.fDest (i : Instr) : Option Reg := i.core.fDestF

/-- The address and the byte count a full-width instruction stores at from `s`, when it ends OK (20_memory.md R59): the
effective address of a store (R158 to R161, R254), `x[rs1]` of an AMO and of an SC whose reservation matches (R221,
R223, R234). -/
def Instr.storeF (s : State) : Instr → Option (Word × Nat)
  | .sb rs1 _ imm => some (effAddr (s.getX rs1) (immI imm), 1)
  | .sh rs1 _ imm => some (effAddr (s.getX rs1) (immI imm), 2)
  | .sw rs1 _ imm | .fsw rs1 _ imm => some (effAddr (s.getX rs1) (immI imm), 4)
  | .sd rs1 _ imm => some (effAddr (s.getX rs1) (immI imm), 8)
  | .scW _ rs1 .. => if s.resv = some (s.getX rs1) then some (s.getX rs1, 4) else none
  | .scD _ rs1 .. => if s.resv = some (s.getX rs1) then some (s.getX rs1, 8) else none
  | .amoswapW _ rs1 .. | .amoaddW _ rs1 .. | .amoxorW _ rs1 .. | .amoandW _ rs1 .. | .amoorW _ rs1 ..
  | .amominW _ rs1 .. | .amomaxW _ rs1 .. | .amominuW _ rs1 .. | .amomaxuW _ rs1 .. => some (s.getX rs1, 4)
  | .amoswapD _ rs1 .. | .amoaddD _ rs1 .. | .amoxorD _ rs1 .. | .amoandD _ rs1 .. | .amoorD _ rs1 ..
  | .amominD _ rs1 .. | .amomaxD _ rs1 .. | .amominuD _ rs1 .. | .amomaxuD _ rs1 .. => some (s.getX rs1, 8)
  | _ => none

/-- The address and the byte count an instruction stores at from `s`, when it ends OK. -/
def Instr.store (s : State) (i : Instr) : Option (Word × Nat) := i.core.storeF s

/-- Whether a full-width instruction takes a control transfer from `s`: a jump does, a branch does when its condition
holds (10_state.md R26, 40_base_integer.md R143 to R150). -/
def Instr.takesF (s : State) : Instr → Bool
  | .jal .. | .jalr .. => true
  | .beq rs1 rs2 _ => s.getX rs1 == s.getX rs2
  | .bne rs1 rs2 _ => s.getX rs1 != s.getX rs2
  | .blt rs1 rs2 _ => (s.getX rs1).slt (s.getX rs2)
  | .bge rs1 rs2 _ => (s.getX rs2).sle (s.getX rs1)
  | .bltu rs1 rs2 _ => (s.getX rs1).ult (s.getX rs2)
  | .bgeu rs1 rs2 _ => (s.getX rs2).ule (s.getX rs1)
  | _ => false

/-- Whether an instruction takes a control transfer from `s`. -/
def Instr.takes (s : State) (i : Instr) : Bool := i.core.takesF s

/-- The base register and the access size of an atomic (42_atomics.md R220). -/
def Instr.atomic : Instr → Option (Reg × Nat)
  | .lrW _ rs1 .. | .scW _ rs1 .. | .amoswapW _ rs1 .. | .amoaddW _ rs1 .. | .amoxorW _ rs1 .. | .amoandW _ rs1 ..
  | .amoorW _ rs1 .. | .amominW _ rs1 .. | .amomaxW _ rs1 .. | .amominuW _ rs1 .. | .amomaxuW _ rs1 .. => some (rs1, 4)
  | .lrD _ rs1 .. | .scD _ rs1 .. | .amoswapD _ rs1 .. | .amoaddD _ rs1 .. | .amoxorD _ rs1 .. | .amoandD _ rs1 ..
  | .amoorD _ rs1 .. | .amominD _ rs1 .. | .amomaxD _ rs1 .. | .amominuD _ rs1 .. | .amomaxuD _ rs1 .. => some (rs1, 8)
  | _ => none

/-- The reservation after an instruction that ends OK from `s`: LR sets it, SC clears it, nothing else touches it
(42_atomics.md R245). -/
def Instr.resvAfter (s : State) : Instr → Option Word
  | .lrW _ rs1 .. | .lrD _ rs1 .. => some (s.getX rs1)
  | .scW .. | .scD .. => none
  | _ => s.resv

/-- The rounding-mode code of an instruction that rounds (43_float.md R251, 60_exceptions.md R363). -/
def Instr.roundingCode : Instr → Option (BitVec 3)
  | .fmaddS _ _ _ _ rm | .fmsubS _ _ _ _ rm | .fnmsubS _ _ _ _ rm | .fnmaddS _ _ _ _ rm | .faddS _ _ _ rm
  | .fsubS _ _ _ rm | .fmulS _ _ _ rm | .fdivS _ _ _ rm | .fsqrtS _ _ rm | .fcvtWS _ _ rm | .fcvtWuS _ _ rm
  | .fcvtSW _ _ rm | .fcvtSWu _ _ rm | .fcvtLS _ _ rm | .fcvtLuS _ _ rm | .fcvtSL _ _ rm | .fcvtSLu _ _ rm => some rm
  | _ => none

end Sys2Proof
end

