-- ==== Sys2Proof/Machine/Collaborator.lean ====
section
/-! DEFINITION. Collaborator.lean: what the host may do between two steps, and runs, 70_reset_and_hazards.md R397, R398. -/
namespace Sys2Proof.Machine

/-- One thing the step-emulation collaborator may do to the state it owns, between two steps (R398). It may not change
`FRM_DYN` or `FacadeFails`, which are constant for a run (R391). -/
inductive HostMove where
  /-- Write an integer register; a write to register 0 is dropped. -/
  | writeX (r : Reg) (v : Word)
  /-- Write a float register. -/
  | writeF (r : Reg) (v : Word)
  /-- Write a byte of memory. -/
  | writeMem (a : Word) (v : Byte)
  /-- Set the address of the next fetch. -/
  | setPc (t : Word)
  /-- Clear the reservation: the source's "explicitly invalidated" (10_state.md R36). -/
  | clearResv
  deriving DecidableEq, Repr

/-- The state after a host move (R398). -/
def HostMove.apply (m : HostMove) (s : State) : State :=
  match m with
  | .writeX r v => s.setX r v
  | .writeF r v => s.setF r v
  | .writeMem a v => s.withMem (Memory.write s.mem a.toNat v)
  | .setPc t => s.withPc t
  | .clearResv => s.setResv none

/-- `s'` is reached from `s` by steps that end OK, the host changing nothing: a run under `NoCollaboratorMoves` (R393,
R397). -/
inductive Run : State → State → Prop where
  | refl (s : State) : Run s s
  | step {s t u : State} (h : Machine.step s = .next t) (r : Run t u) : Run s u

/-- `s'` is reached from `s` by steps that end OK and host moves between them (R398). -/
inductive HostedRun : State → State → Prop where
  | refl (s : State) : HostedRun s s
  | step {s t u : State} (h : Machine.step s = .next t) (r : HostedRun t u) : HostedRun s u
  | move {s u : State} (m : HostMove) (r : HostedRun (m.apply s) u) : HostedRun s u

end Sys2Proof.Machine
end

