-- ==== Sys2Proof/Safety.lean ====
section
/-! DEFINITION. Safety.lean: what counts as a launch state, a safe state and a proper end, in the terms claims use. -/
namespace Sys2Proof.Machine

/-- pc is even (10_state.md R27). -/
def PcEven (s : State) : Prop := s.pc.toNat % 2 = 0

/-- No reservation is held (70_reset_and_hazards.md R393, `ResvNone`). -/
def ResvNone (s : State) : Prop := s.resv = none

/-- The facade serves every access of the list (20_memory.md R57). -/
def Serves (s : State) (as : List Access) : Prop := ∀ a ∈ as, s.refuses a = false

/-- A write of integer register `rd` goes through: `x[0]` always, another when the facade serves it (60_exceptions.md
R363). -/
def ServesX (s : State) (rd : Reg) : Prop := rd = 0#5 ∨ s.refuses (.writeX rd) = false

/-- The invariant of the machine: memory is in its canonical form and pc is even (10_state.md R27). -/
structure Inv (s : State) : Prop where
  memWf : s.mem.wf = true
  pcEven : PcEven s

/-- A launch state: the named premises of 70_reset_and_hazards.md R393 that speak of one state. `FrmDynFixed` and
`FacadeIsMemory` hold by the model's construction, `NoCollaboratorMoves` is the choice of `Run` over `HostedRun`. -/
structure Launch (s : State) : Prop extends Inv s where
  resvNone : ResvNone s

/-- The run has ended properly at `s`: the next step is a debug trap (60_exceptions.md R365). -/
def ProperEnd (s : State) : Prop := step s = .fault .debugTrap

/-- The run has faulted at `s`: DECODE_FAILURE or EXECUTION_FAILURE (60_exceptions.md R365). -/
def FaultedEnd (s : State) : Prop :=
  step s = .fault .decodeFailure ∨ ∃ k, step s = .fault (.executionFailure k)

/-- A safe step: it ends OK or in a debug trap (60_exceptions.md R365). -/
def SafeStep (s : State) : Prop := (∃ t, step s = .next t) ∨ ProperEnd s

end Sys2Proof.Machine
end

