-- ==== Sys2Proof/Certificates/Slice0/Obligations.lean ====
section
/-! DEFINITION. Obligations.lean: the statements about the model. Each docstring names the rules of spec/ it formalises;
`Serves` and `ServesX` are the facade answering (20_memory.md R57, 60_exceptions.md R363). -/

open Sys2Proof Sys2Proof.Machine

/-! ### Encoding, 30_encoding.md and 44_compressed.md -/

/-- Words of the spec's own examples, one or more per family, decode to the instruction they stand for. -/
def Obligations.SampleWordsDecode : Prop :=
  decode 0x80000537 = .ok (.lui 10 0x80000) ∧
  decode 0xFF9FF0EF = .ok (.jal 1 0xFFFFC) ∧
  decode 0x8062F0E3 = .ok (.bgeu 5 6 0xC00) ∧
  decode 0x00412503 = .ok (.lw 10 2 4) ∧
  decode 0x027342BB = .ok (.divw 5 6 7) ∧
  decode 0x18B522AF = .ok (.scW 5 10 11 0) ∧
  decode 0xFE252E27 = .ok (.fsw 10 2 0xFFC) ∧
  decode 0x203100C3 = .ok (.fmaddS 1 2 3 4 0) ∧
  decode 0xE00112D3 = .ok (.fclassS 5 2) ∧
  decode 0x00100073 = .ok .ebreak ∧
  decode 0x00000800 = .ok (.cAddi4spn 0 4) ∧
  decode 0x00004544 = .ok (.cLw 1 2 3)

/-- The decoder reads back every field of every well-formed instruction from its word (R104, R105, R109, R98). -/
def Obligations.DecodeOfEncode : Prop :=
  ∀ i : Instr, WellFormed i = true → decode (encode i) = .ok i

/-- A word that decodes is the encoding of the well-formed instruction it decodes to: no bit of it is dropped
(R81, R104, R105, R109). -/
def Obligations.EncodeOfDecode : Prop :=
  ∀ (w : Word32) (i : Instr), decode w = .ok i → WellFormed i = true ∧ encode i = scanWord w

/-- R105, R112: the block's output is that of the first entry of the table that matches, and INVALID with the raw word
when none does. -/
def Obligations.DecoderTakesFirstMatch : Prop :=
  ∀ w : Word32,
    let rvc := decide (w.extractLsb 1 0 ≠ 0b11#2)
    let raw : Word32 := if rvc then (w.extractLsb 15 0).setWidth 32 else w
    (∃ k e, patternTable[k]? = some e ∧ raw &&& e.mask = e.eigen ∧
      (∀ j e', j < k → patternTable[j]? = some e' → raw &&& e'.mask ≠ e'.eigen) ∧
      decodeBlock w = { inst := (e.build raw).variant raw, raw := raw, isRvc := rvc, pattern := some k }) ∨
    ((∀ e ∈ patternTable, raw &&& e.mask ≠ e.eigen) ∧
      decodeBlock w = { inst := .invalid raw, raw := raw, isRvc := rvc, pattern := none })

/-- R106, R107: two entries can match one word exactly for six pairs, on the words listed. -/
def Obligations.OverlappingPairs : Prop :=
  ∀ (a b : Nat) (ea eb : Entry) (w : Word32), a < b → patternTable[a]? = some ea → patternTable[b]? = some eb →
    (w &&& ea.mask = ea.eigen ∧ w &&& eb.mask = eb.eigen ↔
      ∃ m v : Word32, (a, b, m, v) ∈
        [(120, 121, 0x0000FFFF#32, 0x00000001#32), (124, 125, 0x0000EF83#32, 0x00006101#32),
         (141, 142, 0x0000F07F#32, 0x00008002#32), (143, 144, 0x0000FFFF#32, 0x00009002#32),
         (143, 145, 0x0000FFFF#32, 0x00009002#32), (144, 145, 0x0000F07F#32, 0x00009002#32)] ∧ w &&& m = v)

/-- R81: the length is read from the two low bits; the upper half of a compressed input word is ignored, and `raw` is the
16-bit encoding zero-extended. -/
def Obligations.UpperHalfOfParcelIgnored : Prop :=
  ∀ w : Word32,
    (decodeBlock w).isRvc = decide (w.extractLsb 1 0 ≠ 0b11#2) ∧
    (decodeBlock w).raw = (if w.extractLsb 1 0 = 0b11#2 then w else (w.extractLsb 15 0).setWidth 32) ∧
    ∀ w' : Word32, w.extractLsb 1 0 ≠ 0b11#2 → w.extractLsb 15 0 = w'.extractLsb 15 0 → decodeBlock w = decodeBlock w'

/-- R63, R82, R115, R356: a full-width word whose major opcode no entry uses is INVALID, FENCE and the custom spaces and
the longer encodings among them; so is every word of the SYSTEM opcode but EBREAK. -/
def Obligations.UnusedOpcodesInvalid : Prop :=
  ∀ w : Word32, w.extractLsb 1 0 = 0b11#2 →
    (w.extractLsb 6 0 ∉ [0x03#7, 0x07#7, 0x13#7, 0x17#7, 0x1B#7, 0x23#7, 0x27#7, 0x2F#7, 0x33#7, 0x37#7, 0x3B#7, 0x43#7,
        0x47#7, 0x4B#7, 0x4F#7, 0x53#7, 0x63#7, 0x67#7, 0x6F#7, 0x73#7] ∨
      w.extractLsb 6 0 = 0x73#7 ∧ w ≠ 0x00100073#32) →
    decodeBlock w = { inst := .invalid w, raw := w, isRvc := false, pattern := none }

/-- R338, R352 to R355: the operand values whose output is RESERVED, HINT, NOP or EBREAK are exactly these. -/
def Obligations.SentinelForms : Prop :=
  ∀ (i : Instr) (raw : Word32), WellFormed i = true →
    (i.variant raw = .reserved raw ↔
      (∃ rd', i = .cAddi4spn rd' 0) ∨ (∃ imm, i = .cAddiw 0 imm) ∨ i = .cAddi16sp 0 ∨ (∃ rd, i = .cLui rd 0) ∨
      (∃ u, i = .cLwsp 0 u) ∨ (∃ u, i = .cLdsp 0 u) ∨ i = .cJr 0) ∧
    (i.variant raw = .hint raw ↔
      (∃ imm, imm ≠ 0 ∧ i = .cAddi 0 imm) ∨ (∃ rd, rd ≠ 0 ∧ i = .cAddi rd 0) ∨ (∃ imm, i = .cLi 0 imm) ∨
      (∃ imm, imm ≠ 0 ∧ i = .cLui 0 imm) ∨ (∃ rd', i = .cSrli rd' 0) ∨ (∃ rd', i = .cSrai rd' 0) ∨
      (∃ rd sh, (rd = 0 ∨ sh = 0) ∧ i = .cSlli rd sh) ∨ (∃ rs2, i = .cMv 0 rs2) ∨ (∃ rs2, i = .cAdd 0 rs2)) ∧
    (i.variant raw = .nop raw ↔ i = .cNop) ∧
    (i.variant raw = .ebreak raw ↔ i = .ebreak ∨ i = .cEbreak) ∧
    i.variant raw ≠ .invalid raw

/-- R302: a compressed instruction and its equivalent full-width instruction decode to the same variant with the same
fields, and their executions differ only in the width: the next pc when no transfer is taken, and the link of C.JALR. -/
def Obligations.CompressedEquivalence : Prop :=
  (∀ i j : Instr, WellFormed i = true → i.fullWidth = some j →
    (decodeBlock (encode i)).inst = (decodeBlock (encode j)).inst ∧
    (decodeBlock (encode i)).isRvc = true ∧ (decodeBlock (encode j)).isRvc = false) ∧
  (∀ (i j : Instr) (s : State), i.fullWidth = some j →
    exec i s = match exec j s with
      | .next t => .next (match i with
        | .cJ .. | .cJr .. => t
        | .cJalr .. => t.setX 1 (s.pc + 2)
        | _ => bif i.takes s then t else t.withPc (s.pc + 2))
      | o => o)

/-! ### The step, 20_memory.md R66 and 70_reset_and_hazards.md R397 -/

/-- R66, R397: when the bytes at an even pc are those of a well-formed instruction and the facade serves the fetch, the
step is that instruction's execution, with nothing around it. -/
def Obligations.StepRunsDecodedInstruction : Prop :=
  ∀ (i : Instr) (s : State), WellFormed i = true → PcEven s →
    (∀ k b, (encodeBytes i)[k]? = some b → s.byteAt (s.pc + BitVec.ofNat 64 k) = b) →
    s.refuses (.readMem 2 s.pc) = false → (i.width = 4 → s.refuses (.readMem 2 (s.pc + 2)) = false) →
    step s = exec i s

/-- R66: two bytes are read at pc, and two more only when the low bits of the first two are 11; a refused read ends the
step with Fetch, and a word that matches nothing ends it with DECODE_FAILURE (R361). -/
def Obligations.FetchReadsParcels : Prop :=
  ∀ s : State, PcEven s →
    let lo : BitVec 16 := s.byteAt (s.pc + 1) ++ s.byteAt s.pc
    let hi : BitVec 16 := s.byteAt (s.pc + 3) ++ s.byteAt (s.pc + 2)
    let long := lo.extractLsb 1 0 = 0b11#2
    (s.refuses (.readMem 2 s.pc) = true → step s = .fault (.executionFailure .fetch)) ∧
    (s.refuses (.readMem 2 s.pc) = false → ¬long → fetchWord s = some (lo.setWidth 32)) ∧
    (s.refuses (.readMem 2 s.pc) = false → long → s.refuses (.readMem 2 (s.pc + 2)) = true →
      step s = .fault (.executionFailure .fetch)) ∧
    (s.refuses (.readMem 2 s.pc) = false → long → s.refuses (.readMem 2 (s.pc + 2)) = false →
      fetchWord s = some (hi ++ lo)) ∧
    (∀ w, fetchWord s = some w → ∀ e, decode w = .error e → step s = .fault .decodeFailure)

/-- R67, R394: what a store or a succeeding SC writes, of any size, full-width or compressed, is what the very next fetch
reads: if the bytes at the next pc, stored ones and old ones together, are those of a well-formed instruction of either
width, the next step runs it. `Instr.store` gives the stored address and size. -/
def Obligations.StoredInstructionRunsNext : Prop :=
  ∀ (s t : State) (rd rs1 rs2 : Reg) (rs1' rs2' : CReg) (imm : BitVec 12) (u : BitVec 5) (k : BitVec 6) (q : BitVec 2)
    (j : Instr) (v : Word),
    let r : Reg := BitVec.ofNat 5 (8 + rs2'.toNat)
    (j, v) ∈ [(Instr.sb rs1 rs2 imm, s.getX rs2), (.sh rs1 rs2 imm, s.getX rs2), (.sw rs1 rs2 imm, s.getX rs2),
      (.sd rs1 rs2 imm, s.getX rs2), (.fsw rs1 rs2 imm, s.getF rs2), (.scW rd rs1 rs2 q, s.getX rs2),
      (.scD rd rs1 rs2 q, s.getX rs2), (.cSw rs1' rs2' u, s.getX r), (.cSd rs1' rs2' u, s.getX r),
      (.cSwsp rs2 k, s.getX rs2), (.cSdsp rs2 k, s.getX rs2)] →
    PcEven s → exec j s = .next t →
    ∀ (i : Instr) (a : Word) (n : Nat), WellFormed i = true → j.store s = some (a, n) →
      (∀ l b, (encodeBytes i)[l]? = some b →
        let c := t.pc + BitVec.ofNat 64 l
        (if (c - a).toNat < n then (v >>> (8 * (c - a).toNat)).setWidth 8 else s.byteAt c) = b) →
      s.refuses (.readMem 2 t.pc) = false → (i.width = 4 → s.refuses (.readMem 2 (t.pc + 2)) = false) →
      step t = exec i t

/-- R391, R393: the reset state is a launch state: no reservation, an even pc (0x1000, the choice of log 3), memory in its
canonical form (log 4), x[0] zero. -/
def Obligations.ResetIsLaunch : Prop :=
  Launch State.reset ∧ State.reset.resv = none ∧ State.reset.getX 0 = 0

/-- The invariant of the machine is kept by every step, from every state (R27, R53, log 4). -/
def Obligations.StepKeepsInvariant : Prop :=
  ∀ s t : State, Inv s → step s = .next t → Inv t

/-- R27: if pc is even before an instruction it is even after it. -/
def Obligations.PcStaysEven : Prop :=
  ∀ (i : Instr) (s t : State), PcEven s → exec i s = .next t → PcEven t

/-- R38, R391, R398: `FRM_DYN` and `FacadeFails` are constant over a run, whatever the host does between steps, and
`x[0]` reads zero in every state of it. -/
def Obligations.RunConstants : Prop :=
  ∀ s u : State, HostedRun s u → u.frmDyn = s.frmDyn ∧ u.facade = s.facade ∧ u.getX 0 = 0

/-- R398: what each move of the host between two steps changes, and that it changes nothing else (log 15). A memory move
keeps the canonical form (log 4). -/
def Obligations.HostMoveEffects : Prop :=
  ∀ (s : State) (r r' : Reg) (v a b t : Word) (y : Byte),
    ((HostMove.writeX r v).apply s).getX r' = (if r' = r ∧ r ≠ 0 then v else s.getX r') ∧
    (HostMove.writeX r v).apply s = { s with x := ((HostMove.writeX r v).apply s).x } ∧
    ((HostMove.writeF r v).apply s).getF r' = (if r' = r then v else s.getF r') ∧
    (HostMove.writeF r v).apply s = { s with f := ((HostMove.writeF r v).apply s).f } ∧
    ((HostMove.writeMem a y).apply s).byteAt b = (if b = a then y else s.byteAt b) ∧
    (HostMove.writeMem a y).apply s = { s with mem := ((HostMove.writeMem a y).apply s).mem } ∧
    (HostMove.setPc t).apply s = { s with pc := t } ∧
    HostMove.clearResv.apply s = { s with resv := none } ∧
    (Memory.wf s.mem = true → Memory.wf ((HostMove.writeMem a y).apply s).mem = true)

/-! ### Outcomes, 60_exceptions.md -/

/-- R361 to R363: each way an instruction can end other than OK has the cause the rules give it, and no other: a refused
access is one of the instruction's own, of its source or destination registers and of the address and size it reads or
stores at; which instructions read pc is R363 as log 11 reads it. The model refuses no instruction. -/
def Obligations.CausesOfStopping : Prop :=
  ∀ (i : Instr) (s : State), match exec i s with
    | .next _ => True
    | .refused _ => False
    | .fault .debugTrap => i = .ebreak ∨ i = .cEbreak
    | .fault .decodeFailure => ∀ raw, i.variant raw = .reserved raw
    | .fault (.executionFailure .regRead) =>
      (∃ r ∈ i.xSources, s.refuses (.readX r) = true) ∨ (∃ r ∈ i.fSources, s.refuses (.readF r) = true) ∨
      i.readsPc = true ∧ s.refuses .readPc = true
    | .fault (.executionFailure .regWrite) =>
      (∃ rd, i.xDest = some rd ∧ rd ≠ 0 ∧ s.refuses (.writeX rd) = true) ∨
      (∃ rd, i.fDest = some rd ∧ s.refuses (.writeF rd) = true)
    | .fault (.executionFailure .pcWrite) => s.refuses .writePc = true
    | .fault (.executionFailure .memRead) => ∃ n a, i.load s = some (a, n) ∧ s.refuses (.readMem n a) = true
    | .fault (.executionFailure .memWrite) => ∃ n a, i.store s = some (a, n) ∧ s.refuses (.writeMem n a) = true
    | .fault (.executionFailure .misalignedAtomic) =>
      ∃ r n, i.atomic = some (r, n) ∧ (s.getX r).toNat % n ≠ 0
    | .fault (.executionFailure .invalidRoundingMode) =>
      ∃ c, i.roundingCode = some c ∧ resolveRm s.frmDyn c = none
    | .fault (.executionFailure .fetch) => False

/-- R350, R361, R362: how a step on each sentinel ends; the sentinel carries the block's `raw`. -/
def Obligations.SentinelSteps : Prop :=
  ∀ (s : State) (d : DecodeResult), PcEven s → decodeAt s = some d → match d.inst with
    | .invalid w => w = d.raw ∧ step s = .fault .decodeFailure
    | .reserved w => w = d.raw ∧ step s = .fault .decodeFailure
    | .ebreak w => w = d.raw ∧ step s = .fault .debugTrap
    | .hint w => w = d.raw ∧ (s.refuses .writePc = false → step s = .next (s.withPc (s.pc + 2)))
    | .nop w => w = d.raw ∧ (s.refuses .writePc = false → step s = .next (s.withPc (s.pc + 2)))
    | _ => True

/-- R333, R353, R362: EBREAK is the one word `0x00100073` and C.EBREAK the one parcel `0x9002`; each ends in DEBUG_TRAP in
every state, whatever the facade refuses, and no other instruction does. -/
def Obligations.BreakpointsTrap : Prop :=
  (∀ s : State, exec .ebreak s = .fault .debugTrap ∧ exec .cEbreak s = .fault .debugTrap) ∧
  (∀ (i : Instr) (s : State), exec i s = .fault .debugTrap → i = .ebreak ∨ i = .cEbreak) ∧
  (∀ w : Word32, (decode w = .ok .ebreak ↔ w = 0x00100073) ∧
    (decode w = .ok .cEbreak ↔ w.extractLsb 15 0 = 0x9002#16)) ∧
  decodeBlock 0x00100073 = { inst := .ebreak 0x00100073, raw := 0x00100073, isRvc := false, pattern := some 49 } ∧
  ∀ w : Word32, w.extractLsb 15 0 = 0x9002#16 →
    decodeBlock w = { inst := .ebreak 0x9002, raw := 0x9002, isRvc := true, pattern := some 143 }

/-- R367: the order in which the conditions are met on the AMOs, which can meet every one from the register reads to the
pc write, and the rounding mode of an instruction that rounds, which comes before everything. That both register reads
come before the alignment check is the model's reading of R220, R221 and R367 against R55 (log 10). -/
def Obligations.FailurePriority : Prop :=
  ∀ (s : State) (rd rs1 rs2 : Reg) (q : BitVec 2),
    let a := s.getX rs1
    let amoOutcome (n : Nat) (o : Result) : Prop :=
      if s.refuses (.readX rs1) ∨ s.refuses (.readX rs2) then o = .fault (.executionFailure .regRead)
      else if a.toNat % n ≠ 0 then o = .fault (.executionFailure .misalignedAtomic)
      else if s.refuses (.readMem n a) then o = .fault (.executionFailure .memRead)
      else if s.refuses (.writeMem n a) then o = .fault (.executionFailure .memWrite)
      else if rd ≠ 0 ∧ s.refuses (.writeX rd) then o = .fault (.executionFailure .regWrite)
      else if s.refuses .writePc then o = .fault (.executionFailure .pcWrite)
      else ∃ t, o = .next t
    (∀ i ∈ [Instr.amoswapW rd rs1 rs2 q, .amoaddW rd rs1 rs2 q, .amoxorW rd rs1 rs2 q, .amoandW rd rs1 rs2 q,
        .amoorW rd rs1 rs2 q, .amominW rd rs1 rs2 q, .amomaxW rd rs1 rs2 q, .amominuW rd rs1 rs2 q,
        .amomaxuW rd rs1 rs2 q], amoOutcome 4 (exec i s)) ∧
    (∀ i ∈ [Instr.amoswapD rd rs1 rs2 q, .amoaddD rd rs1 rs2 q, .amoxorD rd rs1 rs2 q, .amoandD rd rs1 rs2 q,
        .amoorD rd rs1 rs2 q, .amominD rd rs1 rs2 q, .amomaxD rd rs1 rs2 q, .amominuD rd rs1 rs2 q,
        .amomaxuD rd rs1 rs2 q], amoOutcome 8 (exec i s)) ∧
    (∀ i c, i.roundingCode = some c → resolveRm s.frmDyn c = none →
      exec i s = .fault (.executionFailure .invalidRoundingMode))

/-! ### Registers, memory, frames -/

/-- R22: integer register 0 reads as zero and ignores writes, and a write to it cannot be refused (R363). -/
def Obligations.RegisterZero : Prop :=
  ∀ (s : State) (r r' : Reg) (v : Word) (k : State → Result),
    s.getX 0 = 0 ∧ s.setX 0 v = s ∧ writeX s 0 v k = k s ∧
    (s.setX r v).getX r' = if r' = r ∧ r ≠ 0 then v else s.getX r'

/-- R31, R32, R33: boxing, the validated read and the boxed write. -/
def Obligations.NaNBoxing : Prop :=
  ∀ (s : State) (r r' : Reg) (v : Word32) (w : Word),
    nanUnBox (nanBox v) = v ∧
    nanBox v = v.setWidth 64 ||| 0xFFFFFFFF00000000 ∧
    (nanUnBox w).setWidth 64 = w &&& 0x00000000FFFFFFFF ∧
    (∀ k : Word32 → Result, s.refuses (.readF r) = false →
      readS s r k = k (if (s.getF r) >>> 32 = 0xFFFFFFFF then (s.getF r).setWidth 32 else 0x7FC00000)) ∧
    (∀ k : State → Result, s.refuses (.writeF r) = false →
      writeS s r v k = k (s.setF r (0xFFFFFFFF#32 ++ v))) ∧
    (s.setF r w).getF r' = if r' = r then w else s.getF r'

/-- R50, R51, R58: a memory read is one facade call; it gives the bytes at `a`, `a+1`, … (modulo 2^64), the lowest
address least significant. -/
def Obligations.MemReadIsLittleEndian : Prop :=
  ∀ (s : State) (a : Word) (n : Nat), n ∈ [1, 2, 4, 8] →
    ∃ v : Word, (∀ j < n, (v >>> (8 * j)).setWidth 8 = s.byteAt (a + BitVec.ofNat 64 j)) ∧ v.toNat < 2 ^ (8 * n) ∧
      ∀ k : Word → Result,
        memRead s a n k = if s.refuses (.readMem n a) then .fault (.executionFailure .memRead) else k v

/-- R52, R58: a memory write is one facade call; when it succeeds exactly its `n` bytes change, byte `j` of the value
going to address `a + j` (modulo 2^64); a refused one is MemWrite. -/
def Obligations.MemWriteChangesItsBytes : Prop :=
  ∀ (s : State) (a v : Word) (n : Nat), n ∈ [1, 2, 4, 8] →
    ∃ m : Memory,
      (∀ b : Word, (s.withMem m).byteAt b =
        if (b - a).toNat < n then (v >>> (8 * (b - a).toNat)).setWidth 8 else s.byteAt b) ∧
      ∀ k : State → Result,
        memWrite s a n v k = if s.refuses (.writeMem n a) then .fault (.executionFailure .memWrite) else k (s.withMem m)

/-- Log 4: equal memories are equal data: two memories in canonical form that read alike at every address are the same
list, and every store keeps the form. -/
def Obligations.MemoryCanonical : Prop :=
  (∀ m m' : Memory, m.wf = true → m'.wf = true → (∀ a : Word, m.read a.toNat = m'.read a.toNat) → m = m') ∧
  (∀ (m : Memory) (a v : Word) (n : Nat), m.wf = true → (storeLE m a v n).wf = true)

/-- Frame of the registers: an instruction that ends OK leaves every integer register but its integer destination, and
every float register but its float destination, as it was; a compressed instruction has the destination of the one it
stands for (R22, R24, R302). -/
def Obligations.RegisterFrame : Prop :=
  ∀ (i : Instr) (s t : State), exec i s = .next t →
    (∀ r, i.xDest ≠ some r → t.getX r = s.getX r) ∧ (∀ r, i.fDest ≠ some r → t.getF r = s.getF r) ∧
    t.frmDyn = s.frmDyn ∧ t.facade = s.facade

/-- Frame of memory: an instruction that ends OK leaves every byte outside the bytes it stores to as it was, and all of
memory when it stores nothing; the address and size are `Instr.store`, by the effective-address function of the meanings
(R52, R59). -/
def Obligations.MemoryFrame : Prop :=
  ∀ (i : Instr) (s t : State), exec i s = .next t →
    match i.store s with
    | none => t.mem = s.mem
    | some (a, n) => ∀ b : Word, n ≤ (b - a).toNat → t.byteAt b = s.byteAt b

/-- R26: every instruction that ends OK and is not a taken control transfer sets pc to pc + width, where width is 2 when
`is_rvc` is set and 4 otherwise; the addition wraps. -/
def Obligations.PcAdvancesByWidth : Prop :=
  ∀ (i : Instr) (s t : State), exec i s = .next t → i.takes s = false →
    t.pc = s.pc + (if (decodeBlock (encode i)).isRvc then 2 else 4)

/-- R36, R245: the reservation is set by LR to its address, cleared by every SC, and touched by nothing else; an SC stores
`x[rs2]` at `x[rs1]` exactly when the reservation is that address; the host can clear it; it is none at launch. -/
def Obligations.ReservationProtocol : Prop :=
  (∀ (i : Instr) (s t : State), exec i s = .next t →
    match i with
    | .lrW _ rs1 _ => t.resv = some (s.getX rs1)
    | .lrD _ rs1 _ => t.resv = some (s.getX rs1)
    | .scW .. => t.resv = none
    | .scD .. => t.resv = none
    | _ => t.resv = s.resv) ∧
  (∀ (s t : State) (rd rs1 rs2 : Reg) (q : BitVec 2) (i : Instr) (n : Nat),
    (i, n) ∈ [(Instr.scW rd rs1 rs2 q, 4), (.scD rd rs1 rs2 q, 8)] → exec i s = .next t →
    let a := s.getX rs1
    (s.resv = some a → (rd ≠ 0 → t.getX rd = 0) ∧
      ∀ c : Word, t.byteAt c =
        if (c - a).toNat < n then ((s.getX rs2) >>> (8 * (c - a).toNat)).setWidth 8 else s.byteAt c) ∧
    (s.resv ≠ some a → (rd ≠ 0 → t.getX rd = 1) ∧ t.mem = s.mem)) ∧
  (∀ s : State, (HostMove.clearResv.apply s).resv = none) ∧
  State.reset.resv = none

/-! ### Results of the base integer instructions, 40_base_integer.md -/

/-- R171 to R180: each ends OK, with the value written to `x[rd]` (dropped for `rd` = 0). -/
def Obligations.RegisterAluResults : Prop :=
  ∀ (s : State) (rd rs1 rs2 : Reg), Serves s [.readX rs1, .readX rs2, .writePc] → ServesX s rd →
    let a := s.getX rs1
    let b := s.getX rs2
    let puts (v : Word) : Result := .next ((s.setX rd v).withPc (s.pc + 4))
    exec (.add rd rs1 rs2) s = puts (BitVec.ofNat 64 (a.toNat + b.toNat)) ∧
    exec (.sub rd rs1 rs2) s = puts (BitVec.ofInt 64 (a.toInt - b.toInt)) ∧
    exec (.sll rd rs1 rs2) s = puts (BitVec.ofNat 64 (a.toNat * 2 ^ (b.toNat % 64))) ∧
    exec (.slt rd rs1 rs2) s = puts (if a.slt b then 1 else 0) ∧
    exec (.sltu rd rs1 rs2) s = puts (if a.ult b then 1 else 0) ∧
    exec (.xor rd rs1 rs2) s = puts (a ^^^ b) ∧
    exec (.srl rd rs1 rs2) s = puts (BitVec.ofNat 64 (a.toNat / 2 ^ (b.toNat % 64))) ∧
    exec (.sra rd rs1 rs2) s = puts (BitVec.ofInt 64 (a.toInt / 2 ^ (b.toNat % 64))) ∧
    exec (.or rd rs1 rs2) s = puts (a ||| b) ∧
    exec (.and rd rs1 rs2) s = puts (a &&& b)

/-- R162 to R170: each ends OK, with the value written to `x[rd]`; the immediate is sign-extended for SLTIU too. -/
def Obligations.ImmediateAluResults : Prop :=
  ∀ (s : State) (rd rs1 : Reg) (imm : BitVec 12) (sh : BitVec 6), Serves s [.readX rs1, .writePc] → ServesX s rd →
    let a := s.getX rs1
    let k : Word := imm.signExtend 64
    let puts (v : Word) : Result := .next ((s.setX rd v).withPc (s.pc + 4))
    exec (.addi rd rs1 imm) s = puts (BitVec.ofInt 64 (a.toInt + imm.toInt)) ∧
    exec (.slti rd rs1 imm) s = puts (if a.slt k then 1 else 0) ∧
    exec (.sltiu rd rs1 imm) s = puts (if a.ult k then 1 else 0) ∧
    exec (.xori rd rs1 imm) s = puts (a ^^^ k) ∧
    exec (.ori rd rs1 imm) s = puts (a ||| k) ∧
    exec (.andi rd rs1 imm) s = puts (a &&& k) ∧
    exec (.slli rd rs1 sh) s = puts (BitVec.ofNat 64 (a.toNat * 2 ^ sh.toNat)) ∧
    exec (.srli rd rs1 sh) s = puts (BitVec.ofNat 64 (a.toNat / 2 ^ sh.toNat)) ∧
    exec (.srai rd rs1 sh) s = puts (BitVec.ofInt 64 (a.toInt / 2 ^ sh.toNat))

/-- R181 to R189: the W forms work on the low 32 bits and write their 32-bit result sign-extended. -/
def Obligations.WordAluResults : Prop :=
  ∀ (s : State) (rd rs1 rs2 : Reg) (imm : BitVec 12) (sh : BitVec 5),
    Serves s [.readX rs1, .readX rs2, .writePc] → ServesX s rd →
    let a : Word32 := (s.getX rs1).setWidth 32
    let b : Word32 := (s.getX rs2).setWidth 32
    let puts (v : Word32) : Result := .next ((s.setX rd (v.signExtend 64)).withPc (s.pc + 4))
    exec (.addiw rd rs1 imm) s = puts (BitVec.ofInt 32 (a.toInt + imm.toInt)) ∧
    exec (.slliw rd rs1 sh) s = puts (BitVec.ofNat 32 (a.toNat * 2 ^ sh.toNat)) ∧
    exec (.srliw rd rs1 sh) s = puts (BitVec.ofNat 32 (a.toNat / 2 ^ sh.toNat)) ∧
    exec (.sraiw rd rs1 sh) s = puts (BitVec.ofInt 32 (a.toInt / 2 ^ sh.toNat)) ∧
    exec (.addw rd rs1 rs2) s = puts (BitVec.ofInt 32 (a.toInt + b.toInt)) ∧
    exec (.subw rd rs1 rs2) s = puts (BitVec.ofInt 32 (a.toInt - b.toInt)) ∧
    exec (.sllw rd rs1 rs2) s = puts (BitVec.ofNat 32 (a.toNat * 2 ^ (b.toNat % 32))) ∧
    exec (.srlw rd rs1 rs2) s = puts (BitVec.ofNat 32 (a.toNat / 2 ^ (b.toNat % 32))) ∧
    exec (.sraw rd rs1 rs2) s = puts (BitVec.ofInt 32 (a.toInt / 2 ^ (b.toNat % 32)))

/-- R141 to R144: LUI and AUIPC; JAL and JALR link `pc + 4` and jump, JALR to the sum of the old `x[rs1]` and the
immediate with bit 0 cleared. -/
def Obligations.UpperImmediatesAndJumps : Prop :=
  ∀ (s : State) (rd rs1 : Reg) (u : BitVec 20) (imm : BitVec 12),
    Serves s [.readX rs1, .readPc, .writePc] → ServesX s rd →
    exec (.lui rd u) s = .next ((s.setX rd ((u ++ 0#12).signExtend 64)).withPc (s.pc + 4)) ∧
    exec (.auipc rd u) s = .next ((s.setX rd (s.pc + (u ++ 0#12).signExtend 64)).withPc (s.pc + 4)) ∧
    exec (.jal rd u) s = .next ((s.setX rd (s.pc + 4)).withPc (s.pc + (u ++ 0#1).signExtend 64)) ∧
    exec (.jalr rd rs1 imm) s =
      .next ((s.setX rd (s.pc + 4)).withPc ((s.getX rs1 + imm.signExtend 64) &&& ~~~1#64))

/-- R145 to R150: a branch writes pc alone: pc plus the offset when its condition holds, pc + 4 otherwise. -/
def Obligations.BranchResults : Prop :=
  ∀ (s : State) (rs1 rs2 : Reg) (o : BitVec 12), Serves s [.readX rs1, .readX rs2, .readPc, .writePc] →
    let a := s.getX rs1
    let b := s.getX rs2
    let goes (c : Bool) : Result := .next (s.withPc (if c then s.pc + (o ++ 0#1).signExtend 64 else s.pc + 4))
    exec (.beq rs1 rs2 o) s = goes (a = b) ∧
    exec (.bne rs1 rs2 o) s = goes (a ≠ b) ∧
    exec (.blt rs1 rs2 o) s = goes (a.slt b) ∧
    exec (.bge rs1 rs2 o) s = goes (!a.slt b) ∧
    exec (.bltu rs1 rs2 o) s = goes (a.ult b) ∧
    exec (.bgeu rs1 rs2 o) s = goes (!a.ult b)

/-- R151 to R157, R54: a load gives the little-endian bytes at the effective address, of any alignment, sign- or
zero-extended. -/
def Obligations.LoadResults : Prop :=
  ∀ (s : State) (rd rs1 : Reg) (imm : BitVec 12), Serves s [.readX rs1, .writePc] → ServesX s rd →
    let a := s.getX rs1 + imm.signExtend 64
    let b (k : Nat) : Byte := s.byteAt (a + BitVec.ofNat 64 k)
    let h : BitVec 16 := b 1 ++ b 0
    let w : BitVec 32 := b 3 ++ b 2 ++ h
    let puts (v : Word) : Result := .next ((s.setX rd v).withPc (s.pc + 4))
    (s.refuses (.readMem 1 a) = false →
      exec (.lb rd rs1 imm) s = puts ((b 0).signExtend 64) ∧ exec (.lbu rd rs1 imm) s = puts ((b 0).setWidth 64)) ∧
    (s.refuses (.readMem 2 a) = false →
      exec (.lh rd rs1 imm) s = puts (h.signExtend 64) ∧ exec (.lhu rd rs1 imm) s = puts (h.setWidth 64)) ∧
    (s.refuses (.readMem 4 a) = false →
      exec (.lw rd rs1 imm) s = puts (w.signExtend 64) ∧ exec (.lwu rd rs1 imm) s = puts (w.setWidth 64)) ∧
    (s.refuses (.readMem 8 a) = false →
      exec (.ld rd rs1 imm) s = puts (b 7 ++ b 6 ++ b 5 ++ b 4 ++ w))

/-- R158 to R161, R254, R54: a store ends OK with exactly its bytes changed, of any alignment, and nothing else but pc;
FSW stores the low word of a float register unchecked. -/
def Obligations.StoreResults : Prop :=
  ∀ (s : State) (rs1 rs2 : Reg) (imm : BitVec 12),
    let a := s.getX rs1 + imm.signExtend 64
    ∀ (i : Instr) (n : Nat) (src : Access) (v : Word),
      (i, n, src, v) ∈ [(Instr.sb rs1 rs2 imm, 1, Access.readX rs2, s.getX rs2), (.sh rs1 rs2 imm, 2, .readX rs2, s.getX rs2),
        (.sw rs1 rs2 imm, 4, .readX rs2, s.getX rs2), (.sd rs1 rs2 imm, 8, .readX rs2, s.getX rs2),
        (.fsw rs1 rs2 imm, 4, .readF rs2, s.getF rs2)] →
      Serves s [.readX rs1, src, .writeMem n a, .writePc] →
      ∃ m : Memory, exec i s = .next ((s.withMem m).withPc (s.pc + 4)) ∧
        ∀ b : Word, (s.withMem m).byteAt b =
          if (b - a).toNat < n then (v >>> (8 * (b - a).toNat)).setWidth 8 else s.byteAt b

/-! ### Multiply and divide, 41_muldiv.md -/

/-- R201 to R204, R209: products. -/
def Obligations.MultiplyResults : Prop :=
  ∀ (s : State) (rd rs1 rs2 : Reg), Serves s [.readX rs1, .readX rs2, .writePc] → ServesX s rd →
    let a := s.getX rs1
    let b := s.getX rs2
    let puts (v : Word) : Result := .next ((s.setX rd v).withPc (s.pc + 4))
    exec (.mul rd rs1 rs2) s = puts (BitVec.ofInt 64 (a.toInt * b.toInt)) ∧
    exec (.mulh rd rs1 rs2) s = puts (BitVec.ofInt 64 (a.toInt * b.toInt / 2 ^ 64)) ∧
    exec (.mulhsu rd rs1 rs2) s = puts (BitVec.ofInt 64 (a.toInt * b.toNat / 2 ^ 64)) ∧
    exec (.mulhu rd rs1 rs2) s = puts (BitVec.ofNat 64 (a.toNat * b.toNat / 2 ^ 64)) ∧
    exec (.mulw rd rs1 rs2) s =
      puts ((BitVec.ofNat 32 ((a.toNat % 2 ^ 32) * (b.toNat % 2 ^ 32))).signExtend 64)

/-- R205 to R208, R210 to R213: quotients and remainders, with the fixed results for a zero divisor and for the overflow
(whose quotient wraps to the dividend); no operand makes a division fail. -/
def Obligations.DivideResults : Prop :=
  ∀ (s : State) (rd rs1 rs2 : Reg), Serves s [.readX rs1, .readX rs2, .writePc] → ServesX s rd →
    let a := s.getX rs1
    let b := s.getX rs2
    let a' : Word32 := a.setWidth 32
    let b' : Word32 := b.setWidth 32
    let puts (v : Word) : Result := .next ((s.setX rd v).withPc (s.pc + 4))
    exec (.div rd rs1 rs2) s = puts (if b = 0 then -1 else BitVec.ofInt 64 (a.toInt.tdiv b.toInt)) ∧
    exec (.divu rd rs1 rs2) s = puts (if b = 0 then -1 else a / b) ∧
    exec (.rem rd rs1 rs2) s = puts (if b = 0 then a else BitVec.ofInt 64 (a.toInt.tmod b.toInt)) ∧
    exec (.remu rd rs1 rs2) s = puts (if b = 0 then a else a % b) ∧
    exec (.divw rd rs1 rs2) s =
      puts ((if b' = 0 then -1 else BitVec.ofInt 32 (a'.toInt.tdiv b'.toInt)).signExtend 64) ∧
    exec (.divuw rd rs1 rs2) s = puts ((if b' = 0 then -1 else a' / b').signExtend 64) ∧
    exec (.remw rd rs1 rs2) s =
      puts ((if b' = 0 then a' else BitVec.ofInt 32 (a'.toInt.tmod b'.toInt)).signExtend 64) ∧
    exec (.remuw rd rs1 rs2) s = puts ((if b' = 0 then a' else a' % b').signExtend 64)

/-- R214: outside a zero divisor and the overflow, dividend = divisor * quotient + remainder with |remainder| < |divisor|,
in the width of the operation, the remainder of the signed forms having the dividend's sign; the results of the table for
the special cases; the W forms write their 32-bit results sign-extended. -/
def Obligations.DivisionLaw : Prop :=
  ∀ (s t u : State) (q r rs1 rs2 : Reg), q ≠ 0 → r ≠ 0 →
    let a := s.getX rs1
    let b := s.getX rs2
    let a' : Word32 := a.setWidth 32
    let b' : Word32 := b.setWidth 32
    let Q := t.getX q
    let R := u.getX r
    (exec (.div q rs1 rs2) s = .next t → exec (.rem r rs1 rs2) s = .next u →
      (b ≠ 0 → ¬(a = BitVec.intMin 64 ∧ b = -1) →
        a.toInt = b.toInt * Q.toInt + R.toInt ∧ R.toInt.natAbs < b.toInt.natAbs ∧
          (0 ≤ a.toInt → 0 ≤ R.toInt) ∧ (a.toInt ≤ 0 → R.toInt ≤ 0)) ∧
      (b = 0 → Q = 0xFFFFFFFFFFFFFFFF ∧ R = a) ∧
      (a = BitVec.intMin 64 → b = -1 → Q = 0x8000000000000000 ∧ R = 0)) ∧
    (exec (.divu q rs1 rs2) s = .next t → exec (.remu r rs1 rs2) s = .next u →
      (b ≠ 0 → a.toNat = b.toNat * Q.toNat + R.toNat ∧ R.toNat < b.toNat) ∧
      (b = 0 → Q = 0xFFFFFFFFFFFFFFFF ∧ R = a)) ∧
    (exec (.divw q rs1 rs2) s = .next t → exec (.remw r rs1 rs2) s = .next u →
      (b' ≠ 0 → ¬(a' = BitVec.intMin 32 ∧ b' = -1) →
        a'.toInt = b'.toInt * Q.toInt + R.toInt ∧ R.toInt.natAbs < b'.toInt.natAbs ∧
          (0 ≤ a'.toInt → 0 ≤ R.toInt) ∧ (a'.toInt ≤ 0 → R.toInt ≤ 0)) ∧
      (b' = 0 → Q = 0xFFFFFFFFFFFFFFFF ∧ R = a'.signExtend 64) ∧
      (a' = BitVec.intMin 32 → b' = -1 → Q = 0xFFFFFFFF80000000 ∧ R = 0)) ∧
    (exec (.divuw q rs1 rs2) s = .next t → exec (.remuw r rs1 rs2) s = .next u →
      let Q' : Word32 := Q.setWidth 32
      let R' : Word32 := R.setWidth 32
      Q = Q'.signExtend 64 ∧ R = R'.signExtend 64 ∧
      (b' ≠ 0 → a'.toNat = b'.toNat * Q'.toNat + R'.toNat ∧ R'.toNat < b'.toNat) ∧
      (b' = 0 → Q = 0xFFFFFFFFFFFFFFFF ∧ R' = a'))

/-! ### Atomics, 42_atomics.md -/

/-- R222, R223, R233, R234: LR loads, sets the reservation and writes the value, sign-extended for `.W`. SC with a matching
reservation stores its bytes and writes 0; any other SC makes no memory access, writes 1 and ends OK too; both clear the
reservation. -/
def Obligations.ReservedPairResults : Prop :=
  ∀ (s : State) (rd rs1 rs2 : Reg) (q : BitVec 2), Serves s [.readX rs1, .writePc] → ServesX s rd →
    let a := s.getX rs1
    let b (k : Nat) : Byte := s.byteAt (a + BitVec.ofNat 64 k)
    let w : BitVec 32 := b 3 ++ b 2 ++ b 1 ++ b 0
    let puts (v : Word) : Result := .next (((s.setResv (some a)).setX rd v).withPc (s.pc + 4))
    (a.toNat % 4 = 0 → s.refuses (.readMem 4 a) = false → exec (.lrW rd rs1 q) s = puts (w.signExtend 64)) ∧
    (a.toNat % 8 = 0 → s.refuses (.readMem 8 a) = false →
      exec (.lrD rd rs1 q) s = puts (b 7 ++ b 6 ++ b 5 ++ b 4 ++ w)) ∧
    (∀ (i : Instr) (n : Nat), (i, n) ∈ [(Instr.scW rd rs1 rs2 q, 4), (.scD rd rs1 rs2 q, 8)] →
      s.refuses (.readX rs2) = false → a.toNat % n = 0 →
      (s.resv ≠ some a → exec i s = .next (((s.setResv none).setX rd 1).withPc (s.pc + 4))) ∧
      (s.resv = some a → s.refuses (.writeMem n a) = false →
        ∃ m : Memory, exec i s = .next ((((s.withMem m).setResv none).setX rd 0).withPc (s.pc + 4)) ∧
          ∀ c : Word, (s.withMem m).byteAt c =
            if (c - a).toNat < n then ((s.getX rs2) >>> (8 * (c - a).toNat)).setWidth 8 else s.byteAt c))

/-- R224 to R232, R235 to R244: an AMO gives `x[rd]` the old value of memory, sign-extended for `.W`, and memory the new
value of the table; the low bits of `x[rs2]` are the other operand. -/
def Obligations.AmoResults : Prop :=
  ∀ (s : State) (rd rs1 rs2 : Reg) (q : BitVec 2),
    let a := s.getX rs1
    let b (k : Nat) : Byte := s.byteAt (a + BitVec.ofNat 64 k)
    let t : Word32 := b 3 ++ b 2 ++ b 1 ++ b 0
    let T : Word := b 7 ++ b 6 ++ b 5 ++ b 4 ++ t
    let v : Word32 := (s.getX rs2).setWidth 32
    let V : Word := s.getX rs2
    ∀ (i : Instr) (n : Nat) (old new : Word),
      (i, n, old, new) ∈
        [(Instr.amoswapW rd rs1 rs2 q, 4, t.signExtend 64, v.setWidth 64),
         (.amoaddW rd rs1 rs2 q, 4, t.signExtend 64, (t + v).setWidth 64),
         (.amoxorW rd rs1 rs2 q, 4, t.signExtend 64, (t ^^^ v).setWidth 64),
         (.amoandW rd rs1 rs2 q, 4, t.signExtend 64, (t &&& v).setWidth 64),
         (.amoorW rd rs1 rs2 q, 4, t.signExtend 64, (t ||| v).setWidth 64),
         (.amominW rd rs1 rs2 q, 4, t.signExtend 64, (if t.slt v then t else v).setWidth 64),
         (.amomaxW rd rs1 rs2 q, 4, t.signExtend 64, (if t.slt v then v else t).setWidth 64),
         (.amominuW rd rs1 rs2 q, 4, t.signExtend 64, (if t.ult v then t else v).setWidth 64),
         (.amomaxuW rd rs1 rs2 q, 4, t.signExtend 64, (if t.ult v then v else t).setWidth 64),
         (.amoswapD rd rs1 rs2 q, 8, T, V), (.amoaddD rd rs1 rs2 q, 8, T, T + V),
         (.amoxorD rd rs1 rs2 q, 8, T, T ^^^ V), (.amoandD rd rs1 rs2 q, 8, T, T &&& V),
         (.amoorD rd rs1 rs2 q, 8, T, T ||| V), (.amominD rd rs1 rs2 q, 8, T, if T.slt V then T else V),
         (.amomaxD rd rs1 rs2 q, 8, T, if T.slt V then V else T),
         (.amominuD rd rs1 rs2 q, 8, T, if T.ult V then T else V),
         (.amomaxuD rd rs1 rs2 q, 8, T, if T.ult V then V else T)] →
      Serves s [.readX rs1, .readX rs2, .readMem n a, .writeMem n a, .writePc] → ServesX s rd → a.toNat % n = 0 →
      ∃ m : Memory, exec i s = .next (((s.withMem m).setX rd old).withPc (s.pc + 4)) ∧
        ∀ c : Word, (s.withMem m).byteAt c =
          if (c - a).toNat < n then (new >>> (8 * (c - a).toNat)).setWidth 8 else s.byteAt c

/-- R55, R220: every atomic whose address is not a multiple of its access size ends with MisalignedAtomic once its
registers are read, an SC whose reservation does not match too (log 10). -/
def Obligations.MisalignedAtomicsFail : Prop :=
  ∀ (i : Instr) (s : State) (r : Reg) (n : Nat), i.atomic = some (r, n) → (∀ r', s.refuses (.readX r') = false) →
    (s.getX r).toNat % n ≠ 0 → exec i s = .fault (.executionFailure .misalignedAtomic)

/-- R220: the aq and rl bits change nothing, in the decoded variant and in execution. -/
def Obligations.AcquireReleaseIgnored : Prop :=
  ∀ (s : State) (rd rs1 rs2 : Reg) (q q' : BitVec 2) (raw : Word32),
    ∀ f ∈ [fun q => Instr.lrW rd rs1 q, fun q => .scW rd rs1 rs2 q, fun q => .amoswapW rd rs1 rs2 q,
      fun q => .amoaddW rd rs1 rs2 q, fun q => .amoxorW rd rs1 rs2 q, fun q => .amoandW rd rs1 rs2 q,
      fun q => .amoorW rd rs1 rs2 q, fun q => .amominW rd rs1 rs2 q, fun q => .amomaxW rd rs1 rs2 q,
      fun q => .amominuW rd rs1 rs2 q, fun q => .amomaxuW rd rs1 rs2 q, fun q => .lrD rd rs1 q,
      fun q => .scD rd rs1 rs2 q, fun q => .amoswapD rd rs1 rs2 q, fun q => .amoaddD rd rs1 rs2 q,
      fun q => .amoxorD rd rs1 rs2 q, fun q => .amoandD rd rs1 rs2 q, fun q => .amoorD rd rs1 rs2 q,
      fun q => .amominD rd rs1 rs2 q, fun q => .amomaxD rd rs1 rs2 q, fun q => .amominuD rd rs1 rs2 q,
      fun q => .amomaxuD rd rs1 rs2 q],
    (f q).variant raw = (f q').variant raw ∧ exec (f q) s = exec (f q') s

/-! ### Single-precision float, 43_float.md -/

/-- R251: the table of rounding-mode codes, static and through `FRM_DYN`. -/
def Obligations.RoundingModeCodes : Prop :=
  (∀ frm : BitVec 3, resolveRm frm 0b000 = some .rne ∧ resolveRm frm 0b001 = some .rtz ∧
    resolveRm frm 0b010 = some .rdn ∧ resolveRm frm 0b011 = some .rup ∧ resolveRm frm 0b100 = some .rmm ∧
    resolveRm frm 0b101 = none ∧ resolveRm frm 0b110 = none ∧
    resolveRm frm 0b111 = if frm = 0b111 then none else resolveRm frm frm)

/-- R253, R271, R278: the moves keep the 32 bits as they are: FLW and FMV.W.X box them, FMV.X.W sign-extends them,
unchecked. -/
def Obligations.FloatMoveResults : Prop :=
  ∀ (s : State) (rd rs1 : Reg) (imm : BitVec 12), s.refuses .writePc = false →
    let a := s.getX rs1 + imm.signExtend 64
    let b (k : Nat) : Byte := s.byteAt (a + BitVec.ofNat 64 k)
    (Serves s [.readX rs1, .readMem 4 a, .writeF rd] → exec (.flw rd rs1 imm) s =
      .next ((s.setF rd (0xFFFFFFFF#32 ++ (b 3 ++ b 2 ++ b 1 ++ b 0))).withPc (s.pc + 4))) ∧
    (Serves s [.readX rs1, .writeF rd] → exec (.fmvWX rd rs1) s =
      .next ((s.setF rd (0xFFFFFFFF#32 ++ (s.getX rs1).setWidth 32)).withPc (s.pc + 4))) ∧
    (s.refuses (.readF rs1) = false → ServesX s rd → exec (.fmvXW rd rs1) s =
      .next ((s.setX rd (((s.getF rs1).setWidth 32).signExtend 64)).withPc (s.pc + 4)))

/-- R255 to R263: with a rounding mode that resolves, each ends OK in every state that serves it, whatever the operands,
writing the boxed result of R252's function on the validated reads. -/
def Obligations.FloatArithmeticResults : Prop :=
  ∀ (s : State) (rd rs1 rs2 rs3 : Reg) (rm : BitVec 3) (m : RoundingMode),
    Serves s [.readF rs1, .readF rs2, .readF rs3, .writeF rd, .writePc] → resolveRm s.frmDyn rm = some m →
    let a := unboxChecked (s.getF rs1)
    let b := unboxChecked (s.getF rs2)
    let c := unboxChecked (s.getF rs3)
    let neg (v : Word32) : Word32 := v ^^^ 0x80000000
    let puts (v : Word32) : Result := .next ((s.setF rd (0xFFFFFFFF#32 ++ v)).withPc (s.pc + 4))
    exec (.fmaddS rd rs1 rs2 rs3 rm) s = puts (fMulAdd m a b c) ∧
    exec (.fmsubS rd rs1 rs2 rs3 rm) s = puts (fMulAdd m a b (neg c)) ∧
    exec (.fnmsubS rd rs1 rs2 rs3 rm) s = puts (fMulAdd m (neg a) b c) ∧
    exec (.fnmaddS rd rs1 rs2 rs3 rm) s = puts (fMulAdd m (neg a) b (neg c)) ∧
    exec (.faddS rd rs1 rs2 rm) s = puts (fAdd m a b) ∧
    exec (.fsubS rd rs1 rs2 rm) s = puts (fAdd m a (neg b)) ∧
    exec (.fmulS rd rs1 rs2 rm) s = puts (fMul m a b) ∧
    exec (.fdivS rd rs1 rs2 rm) s = puts (fDiv m a b) ∧
    exec (.fsqrtS rd rs1 rm) s = puts (fSqrt m a)

/-- R264 to R268, R272 to R275: sign injection, minimum and maximum, comparison and classification, on the validated
reads. -/
def Obligations.FloatSelectResults : Prop :=
  ∀ (s : State) (rd rs1 rs2 : Reg), Serves s [.readF rs1, .readF rs2, .writePc] →
    let a := unboxChecked (s.getF rs1)
    let b := unboxChecked (s.getF rs2)
    let ordered := !isNaN a && !isNaN b
    let putsF (v : Word32) : Result := .next ((s.setF rd (0xFFFFFFFF#32 ++ v)).withPc (s.pc + 4))
    let putsX (v : Word) : Result := .next ((s.setX rd v).withPc (s.pc + 4))
    (s.refuses (.writeF rd) = false →
      exec (.fsgnjS rd rs1 rs2) s = putsF (a &&& 0x7FFFFFFF ||| b &&& 0x80000000) ∧
      exec (.fsgnjnS rd rs1 rs2) s = putsF (a &&& 0x7FFFFFFF ||| ~~~b &&& 0x80000000) ∧
      exec (.fsgnjxS rd rs1 rs2) s = putsF (a ^^^ b &&& 0x80000000) ∧
      exec (.fminS rd rs1 rs2) s = putsF (
        if isNaN a ∧ isNaN b then 0x7FC00000 else if isNaN a then b else if isNaN b then a
        else if isZero a ∧ isZero b ∧ a ≠ b then 0x80000000 else if fValue a < fValue b then a else b) ∧
      exec (.fmaxS rd rs1 rs2) s = putsF (
        if isNaN a ∧ isNaN b then 0x7FC00000 else if isNaN a then b else if isNaN b then a
        else if isZero a ∧ isZero b ∧ a ≠ b then 0x00000000 else if fValue b < fValue a then a else b)) ∧
    (ServesX s rd →
      exec (.feqS rd rs1 rs2) s = putsX (if ordered ∧ fValue a = fValue b then 1 else 0) ∧
      exec (.fltS rd rs1 rs2) s = putsX (if ordered ∧ fValue a < fValue b then 1 else 0) ∧
      exec (.fleS rd rs1 rs2) s = putsX (if ordered ∧ fValue a ≤ fValue b then 1 else 0) ∧
      exec (.fclassS rd rs1) s = putsX (
        if a = 0xFF800000 then 1 else if a = 0x80000000 then 8 else if a = 0 then 16 else if a = 0x7F800000 then 128
        else if isNaN a then (if a.getLsbD 22 then 512 else 256)
        else if isSubnormal a then (if a.msb then 4 else 32) else if a.msb then 2 else 64))

/-- R269, R270, R276, R277, R279 to R282: with a rounding mode that resolves, each conversion ends OK, whatever the
operand. -/
def Obligations.FloatConversionResults : Prop :=
  ∀ (s : State) (rd rs1 : Reg) (rm : BitVec 3) (m : RoundingMode), s.refuses .writePc = false →
    resolveRm s.frmDyn rm = some m →
    let a := unboxChecked (s.getF rs1)
    let x := s.getX rs1
    let w : Word32 := x.setWidth 32
    let putsF (v : Word32) : Result := .next ((s.setF rd (0xFFFFFFFF#32 ++ v)).withPc (s.pc + 4))
    let putsX (v : Word) : Result := .next ((s.setX rd v).withPc (s.pc + 4))
    (s.refuses (.readF rs1) = false → ServesX s rd →
      exec (.fcvtWS rd rs1 rm) s = putsX ((BitVec.ofInt 32 (fToInt m (-2 ^ 31) (2 ^ 31 - 1) a)).signExtend 64) ∧
      exec (.fcvtWuS rd rs1 rm) s = putsX ((BitVec.ofInt 32 (fToInt m 0 (2 ^ 32 - 1) a)).signExtend 64) ∧
      exec (.fcvtLS rd rs1 rm) s = putsX (BitVec.ofInt 64 (fToInt m (-2 ^ 63) (2 ^ 63 - 1) a)) ∧
      exec (.fcvtLuS rd rs1 rm) s = putsX (BitVec.ofInt 64 (fToInt m 0 (2 ^ 64 - 1) a))) ∧
    (Serves s [.readX rs1, .writeF rd] →
      exec (.fcvtSW rd rs1 rm) s = putsF (fOfInt m w.toInt) ∧
      exec (.fcvtSWu rd rs1 rm) s = putsF (fOfInt m w.toNat) ∧
      exec (.fcvtSL rd rs1 rm) s = putsF (fOfInt m x.toInt) ∧
      exec (.fcvtSLu rd rs1 rm) s = putsF (fOfInt m x.toNat))

/-- R269, R283: a conversion to an integer saturates: NaN and plus infinity give the top of the range, minus infinity the
bottom; a finite value gives the integer nearest to it in the direction of the mode, moved into the range. `n` is the
value in units of 2^-149. -/
def Obligations.ConversionSaturates : Prop :=
  ∀ (m : RoundingMode) (lo hi : Int) (a : Word32), lo ≤ hi →
    let n := fValue a
    let u : Int := 2 ^ 149
    (isNaN a → fToInt m lo hi a = hi) ∧
    (isInf a → fToInt m lo hi a = if a.msb then lo else hi) ∧
    (isNaN a = false → isInf a = false → ∃ r : Int, fToInt m lo hi a = max lo (min hi r) ∧
      match m with
      | .rdn => r * u ≤ n ∧ n < (r + 1) * u
      | .rup => (r - 1) * u < n ∧ n ≤ r * u
      | .rtz => (0 ≤ n → r * u ≤ n ∧ n < (r + 1) * u) ∧ (n ≤ 0 → (r - 1) * u < n ∧ n ≤ r * u)
      | .rne => 2 * (n - r * u).natAbs ≤ u.natAbs ∧ (2 * (n - r * u).natAbs = u.natAbs → r % 2 = 0)
      | .rmm => 2 * (n - r * u).natAbs ≤ u.natAbs ∧ (2 * (n - r * u).natAbs = u.natAbs → n.natAbs < (r * u).natAbs))

/-- R252: the results on a NaN, an infinity or a zero operand, and of a sum that is exactly zero, for the sum, the product,
the quotient, the fused sum and the square root, in every mode. -/
def Obligations.FloatSpecialCases : Prop :=
  ∀ (m : RoundingMode) (a b c : Word32),
    let fin (x : Word32) : Prop := isNaN x = false ∧ isInf x = false
    let inf (neg : Bool) : Word32 := if neg then 0xFF800000 else 0x7F800000
    let zero (neg : Bool) : Word32 := if neg then 0x80000000 else 0x00000000
    let opposite := a.msb ^^ b.msb
    let cancelled : Word32 := if m = .rdn then 0x80000000 else 0x00000000
    -- a NaN operand; the invalid operations
    (isNaN a ∨ isNaN b → fAdd m a b = 0x7FC00000 ∧ fMul m a b = 0x7FC00000 ∧ fDiv m a b = 0x7FC00000) ∧
    (isNaN a ∨ isNaN b ∨ isNaN c → fMulAdd m a b c = 0x7FC00000) ∧
    (isNaN a → fSqrt m a = 0x7FC00000) ∧
    (isInf a → isInf b → a ≠ b → fAdd m a b = 0x7FC00000) ∧
    (isInf a → isZero b → fMul m a b = 0x7FC00000 ∧ fMul m b a = 0x7FC00000 ∧ fMulAdd m a b c = 0x7FC00000 ∧
      fMulAdd m b a c = 0x7FC00000) ∧
    (isZero a → isZero b → fDiv m a b = 0x7FC00000) ∧
    (isInf a → isInf b → fDiv m a b = 0x7FC00000) ∧
    (a.msb → isZero a = false → fSqrt m a = 0x7FC00000) ∧
    (isInf a ∨ isInf b → isInf c → c.msb ≠ opposite → fMulAdd m a b c = 0x7FC00000) ∧
    -- infinities as limits
    (isInf a → fin b → fAdd m a b = a) ∧
    (isInf a → fAdd m a a = a) ∧
    (isInf a → isNaN b = false → isZero b = false → fMul m a b = inf opposite) ∧
    (isInf a → fin b → fDiv m a b = inf opposite) ∧
    (fin a → isInf b → fDiv m a b = zero opposite) ∧
    (isInf a → a.msb = false → fSqrt m a = a) ∧
    (isInf a → isNaN b = false → isZero b = false → isNaN c = false → (isInf c → c.msb = opposite) →
      fMulAdd m a b c = inf opposite) ∧
    (fin a → fin b → isInf c → fMulAdd m a b c = c) ∧
    -- zeros
    (isZero a → fSqrt m a = a) ∧
    (fin a → isZero a = false → isZero b → fDiv m a b = inf opposite) ∧
    (isZero a → fin b → isZero b = false → fDiv m a b = zero opposite) ∧
    (isZero a → fin b → fMul m a b = zero opposite) ∧
    -- exact zero sums
    (fin a → fin b → fValue a + fValue b = 0 → fAdd m a b = if a.msb = b.msb then zero a.msb else cancelled) ∧
    (fin a → isZero a = false → fAdd m a (a ^^^ 0x80000000) = cancelled) ∧
    (isZero a → fAdd m a a = a) ∧
    (isZero a → isZero b → a ≠ b → fAdd m a b = cancelled) ∧
    (fin a → fin b → fin c → fValue a * fValue b + fValue c * 2 ^ 149 = 0 →
      fMulAdd m a b c = if opposite = c.msb then zero c.msb else cancelled) ∧
    -- the order of the operands
    fAdd m a b = fAdd m b a ∧ fMul m a b = fMul m b a ∧ fMulAdd m a b c = fMulAdd m b a c

/-- R251, R252: rounding to nearest. The result of rounding `n / d` units of 2^-149 is an infinity exactly from the
half-way point above the largest finite value on; below it, it is as near to `n / d` as any finite pattern, and at a tie
it is the even one (RNE) or the larger one (RMM). -/
def Obligations.RoundToNearest : Prop :=
  ∀ (m : RoundingMode) (neg : Bool) (n d : Nat), m = .rne ∨ m = .rmm → 0 < n → 0 < d →
    let v := roundS m neg n d
    v.msb = neg ∧ isNaN v = false ∧
    ((2 ^ 25 - 1) * 2 ^ 253 * d ≤ 2 * n → isInf v = true) ∧
    (2 * n < (2 ^ 25 - 1) * 2 ^ 253 * d → isInf v = false ∧
      ∀ q : Word32, isNaN q = false → isInf q = false →
        let dv := ((fUnits v * d : Nat) - n : Int).natAbs
        let dq := ((fUnits q * d : Nat) - n : Int).natAbs
        dv ≤ dq ∧ (dv = dq → fUnits q ≠ fUnits v →
          (m = .rne → v.getLsbD 0 = false) ∧ (m = .rmm → fUnits q < fUnits v)))

/-- R251, R252: directed rounding. Toward zero the result is the largest finite pattern not above `n / d`; away from zero
the smallest not below it, or an infinity when there is none. -/
def Obligations.RoundDirected : Prop :=
  ∀ (m : RoundingMode) (neg : Bool) (n d : Nat), 0 < n → 0 < d →
    let v := roundS m neg n d
    (m = .rtz ∨ m = .rdn ∧ neg = false ∨ m = .rup ∧ neg = true →
      v.msb = neg ∧ isNaN v = false ∧ isInf v = false ∧ fUnits v * d ≤ n ∧
      ∀ q : Word32, isNaN q = false → isInf q = false → fUnits q * d ≤ n → fUnits q ≤ fUnits v) ∧
    (m = .rup ∧ neg = false ∨ m = .rdn ∧ neg = true →
      v.msb = neg ∧ isNaN v = false ∧
      (fUnits 0x7F7FFFFF * d < n → isInf v = true) ∧
      (n ≤ fUnits 0x7F7FFFFF * d → isInf v = false ∧ n ≤ fUnits v * d ∧
        ∀ q : Word32, isNaN q = false → isInf q = false → n ≤ fUnits q * d → fUnits v ≤ fUnits q))

/-- R252: a value the format holds is not changed by rounding, in any mode; so an exact sum or product that the format
holds is the result. -/
def Obligations.ExactResultsAreExact : Prop :=
  (∀ (m : RoundingMode) (c : Word32) (d : Nat), 0 < d → isNaN c = false → isInf c = false → isZero c = false →
    roundS m c.msb (fUnits c * d) d = c) ∧
  (∀ (m : RoundingMode) (a b c : Word32), (∀ x ∈ [a, b, c], isNaN x = false ∧ isInf x = false) → isZero c = false →
    (fValue a + fValue b = fValue c → fAdd m a b = c) ∧
    (fValue a * fValue b = fValue c * 2 ^ 149 → fMul m a b = c))

/-- R252: the square root of a positive finite value, rounded: `v` is as the mode says among the finite patterns, compared
through squares (`A` is the square of the exact root, in units of 2^-298). -/
def Obligations.SquareRootRounds : Prop :=
  ∀ (m : RoundingMode) (a q : Word32), a.msb = false → isNaN a = false → isInf a = false → isZero a = false →
    isNaN q = false → isInf q = false →
    let v := fSqrt m a
    let A := fUnits a * 2 ^ 149
    v.msb = false ∧ isNaN v = false ∧ isInf v = false ∧
    (m = .rtz ∨ m = .rdn → fUnits v ^ 2 ≤ A ∧ (fUnits q ^ 2 ≤ A → fUnits q ≤ fUnits v)) ∧
    (m = .rup → A ≤ fUnits v ^ 2 ∧ (A ≤ fUnits q ^ 2 → fUnits v ≤ fUnits q)) ∧
    (m = .rne ∨ m = .rmm →
      (fUnits q < fUnits v → (fUnits v + fUnits q) ^ 2 ≤ 4 * A) ∧ (fUnits v < fUnits q → 4 * A ≤ (fUnits v + fUnits q) ^ 2))

/-! ### Compressed, 44_compressed.md -/

/-- R305, R311 to R324, R328, R332, R335: the compressed arithmetic, in the forms that are not sentinels. -/
def Obligations.CompressedAluResults : Prop :=
  ∀ (s : State) (rd rs2 : Reg) (rd' rs2' : CReg) (u : BitVec 8) (k : BitVec 6), (∀ r, s.refuses (.readX r) = false) →
    (∀ r, s.refuses (.writeX r) = false) → s.refuses .writePc = false →
    let d : Reg := BitVec.ofNat 5 (8 + rd'.toNat)
    let e : Reg := BitVec.ofNat 5 (8 + rs2'.toNat)
    let K : Word := k.signExtend 64
    let puts (r : Reg) (v : Word) : Result := .next ((s.setX r v).withPc (s.pc + 2))
    (u ≠ 0 → exec (.cAddi4spn rd' u) s = puts d (s.getX 2 + BitVec.ofNat 64 (4 * u.toNat))) ∧
    (k ≠ 0 → exec (.cAddi16sp k) s = puts 2 (s.getX 2 + BitVec.ofInt 64 (16 * k.toInt))) ∧
    (rd ≠ 0 →
      exec (.cAddiw rd k) s = puts rd (((s.getX rd + K).setWidth 32).signExtend 64) ∧
      exec (.cLi rd k) s = puts rd K ∧
      exec (.cMv rd rs2) s = puts rd (s.getX rs2) ∧
      exec (.cAdd rd rs2) s = puts rd (s.getX rd + s.getX rs2)) ∧
    (rd ≠ 0 → k ≠ 0 →
      exec (.cAddi rd k) s = puts rd (s.getX rd + K) ∧
      exec (.cLui rd k) s = puts rd (BitVec.ofInt 64 (4096 * k.toInt)) ∧
      exec (.cSlli rd k) s = puts rd (s.getX rd <<< k.toNat)) ∧
    (k ≠ 0 →
      exec (.cSrli rd' k) s = puts d (s.getX d >>> k.toNat) ∧
      exec (.cSrai rd' k) s = puts d ((s.getX d).sshiftRight k.toNat)) ∧
    exec (.cAndi rd' k) s = puts d (s.getX d &&& K) ∧
    exec (.cSub rd' rs2') s = puts d (s.getX d - s.getX e) ∧
    exec (.cXor rd' rs2') s = puts d (s.getX d ^^^ s.getX e) ∧
    exec (.cOr rd' rs2') s = puts d (s.getX d ||| s.getX e) ∧
    exec (.cAnd rd' rs2') s = puts d (s.getX d &&& s.getX e) ∧
    exec (.cSubw rd' rs2') s = puts d (((s.getX d - s.getX e).setWidth 32).signExtend 64) ∧
    exec (.cAddw rd' rs2') s = puts d (((s.getX d + s.getX e).setWidth 32).signExtend 64)

/-- R306 to R309, R329, R330, R336, R337: the compressed loads and stores; the offset is scaled and never negative; `rd` = 0
is not a load in the stack-pointer forms (RESERVED). A store changes exactly its bytes, and nothing else but pc. -/
def Obligations.CompressedMemoryResults : Prop :=
  ∀ (s : State) (rd rs2 : Reg) (rd' rs1' : CReg) (u : BitVec 5) (k : BitVec 6), (∀ r, s.refuses (.readX r) = false) →
    (∀ r, s.refuses (.writeX r) = false) → s.refuses .writePc = false →
    let d : Reg := BitVec.ofNat 5 (8 + rd'.toNat)
    let base : Word := s.getX (BitVec.ofNat 5 (8 + rs1'.toNat))
    let sp : Word := s.getX 2
    let b (a : Word) (j : Nat) : Byte := s.byteAt (a + BitVec.ofNat 64 j)
    let word (a : Word) : Word32 := b a 3 ++ b a 2 ++ b a 1 ++ b a 0
    let double (a : Word) : Word := b a 7 ++ b a 6 ++ b a 5 ++ b a 4 ++ word a
    let puts (r : Reg) (v : Word) : Result := .next ((s.setX r v).withPc (s.pc + 2))
    (∀ (i : Instr) (n : Nat) (r : Reg) (a v : Word),
      (i, n, r, a, v) ∈
        [(Instr.cLw rd' rs1' u, 4, d, base + BitVec.ofNat 64 (4 * u.toNat),
            (word (base + BitVec.ofNat 64 (4 * u.toNat))).signExtend 64),
         (.cLd rd' rs1' u, 8, d, base + BitVec.ofNat 64 (8 * u.toNat), double (base + BitVec.ofNat 64 (8 * u.toNat))),
         (.cLwsp rd k, 4, rd, sp + BitVec.ofNat 64 (4 * k.toNat), (word (sp + BitVec.ofNat 64 (4 * k.toNat))).signExtend 64),
         (.cLdsp rd k, 8, rd, sp + BitVec.ofNat 64 (8 * k.toNat), double (sp + BitVec.ofNat 64 (8 * k.toNat)))] →
      r ≠ 0 → s.refuses (.readMem n a) = false → exec i s = puts r v) ∧
    (∀ (i : Instr) (n : Nat) (a : Word) (src : Reg),
      (i, n, a, src) ∈
        [(Instr.cSw rs1' rd' u, 4, base + BitVec.ofNat 64 (4 * u.toNat), d),
         (.cSd rs1' rd' u, 8, base + BitVec.ofNat 64 (8 * u.toNat), d),
         (.cSwsp rs2 k, 4, sp + BitVec.ofNat 64 (4 * k.toNat), rs2),
         (.cSdsp rs2 k, 8, sp + BitVec.ofNat 64 (8 * k.toNat), rs2)] →
      s.refuses (.writeMem n a) = false →
      ∃ m : Memory, exec i s = .next ((s.withMem m).withPc (s.pc + 2)) ∧
        ∀ c : Word, (s.withMem m).byteAt c =
          if (c - a).toNat < n then ((s.getX src) >>> (8 * (c - a).toNat)).setWidth 8 else s.byteAt c)

/-- R325 to R327, R331, R334: the compressed jumps and branches; the link of C.JALR is `pc + 2`, and its target is read
before the link is written. -/
def Obligations.CompressedJumpResults : Prop :=
  ∀ (s : State) (rs1 : Reg) (rs1' : CReg) (o : BitVec 11) (p : BitVec 8), (∀ r, s.refuses (.readX r) = false) →
    (∀ r, s.refuses (.writeX r) = false) → s.refuses .readPc = false → s.refuses .writePc = false →
    let c := s.getX (BitVec.ofNat 5 (8 + rs1'.toNat))
    exec (.cJ o) s = .next (s.withPc (s.pc + BitVec.ofInt 64 (2 * o.toInt))) ∧
    exec (.cBeqz rs1' p) s = .next (s.withPc (s.pc + if c = 0 then BitVec.ofInt 64 (2 * p.toInt) else 2)) ∧
    exec (.cBnez rs1' p) s = .next (s.withPc (s.pc + if c = 0 then 2 else BitVec.ofInt 64 (2 * p.toInt))) ∧
    (rs1 ≠ 0 → exec (.cJr rs1) s = .next (s.withPc (s.getX rs1 &&& ~~~1#64))) ∧
    exec (.cJalr rs1) s = .next ((s.setX 1 (s.pc + 2)).withPc (s.getX rs1 &&& ~~~1#64))

/-- R310, R354, R355: C.NOP and the HINT forms change nothing but pc, which advances by 2, and ask the facade for nothing
but that. -/
def Obligations.NopAndHints : Prop :=
  ∀ s : State, s.refuses .writePc = false → ∀ (rd rs2 : Reg) (rd' : CReg) (k : BitVec 6), ∀ i ∈ [Instr.cNop, .cAddi 0 k,
    .cAddi rd 0, .cLi 0 k, .cSrli rd' 0, .cSrai rd' 0, .cSlli 0 k, .cSlli rd 0, .cMv 0 rs2, .cAdd 0 rs2] ++
    (if k = 0 then [] else [Instr.cLui 0 k]),
    exec i s = .next (s.withPc (s.pc + 2))

/-! ### Finite operands of the float operations, 43_float.md -/

/-- R252, R276, R277, R281, R282: on finite operands every result that is not exactly zero is the rounding of the exact
result, once: of the sum in units of 2^-149, of the product and the fused sum in units of 2^-298 over 2^149, of the
quotient as a fraction; an integer is converted by rounding it, and 0 gives +0. What `roundS` gives is `RoundToNearest`
and `RoundDirected`. -/
def Obligations.FiniteResultsAreRounded : Prop :=
  ∀ (m : RoundingMode) (a b c : Word32) (n : Int), (∀ x ∈ [a, b, c], isNaN x = false ∧ isInf x = false) →
    let sum := fValue a + fValue b
    let product := fValue a * fValue b
    let fused := product + fValue c * 2 ^ 149
    (sum ≠ 0 → fAdd m a b = roundS m (sum < 0) sum.natAbs 1) ∧
    (product ≠ 0 → fMul m a b = roundS m (product < 0) product.natAbs (2 ^ 149)) ∧
    (product ≠ 0 → fDiv m a b = roundS m (product < 0) ((fValue a).natAbs * 2 ^ 149) (fValue b).natAbs) ∧
    (fused ≠ 0 → fMulAdd m a b c = roundS m (fused < 0) fused.natAbs (2 ^ 149)) ∧
    fOfInt m 0 = 0x00000000 ∧ (n ≠ 0 → fOfInt m n = roundS m (n < 0) (n.natAbs * 2 ^ 149) 1)
end

