-- ==== Sys2Proof/Laws/Encoding.lean ====
section
/-! SUPPORT. Laws/Encoding.lean: the bits of every format of the encoder, what each extractor reads back from it, and
what a type mask leaves of it. -/
namespace Sys2Proof

/-! ### Bits of the formats, the extractors and the scrambles -/

theorem encU_bit (imm : BitVec 20) (rd : Reg) (op : BitVec 7) (i : Nat) : (encU imm rd op).getLsbD i =
    (imm ++ rd ++ op : BitVec (20 + 5 + 7)).getLsbD i := rfl
theorem encJ_bit (off : BitVec 20) (rd : Reg) (op : BitVec 7) (i : Nat) : (encJ off rd op).getLsbD i =
    (off.extractLsb 19 19 ++ off.extractLsb 9 0 ++ off.extractLsb 10 10 ++ off.extractLsb 18 11 ++ rd ++ op : BitVec (1 + 10 + 1 + 8 + 5 + 7)).getLsbD i := rfl
theorem encR_bit (f7 : BitVec 7) (rs2 : Reg) (rs1 : Reg) (f3 : BitVec 3) (rd : Reg) (op : BitVec 7) (i : Nat) : (encR f7 rs2 rs1 f3 rd op).getLsbD i =
    (f7 ++ rs2 ++ rs1 ++ f3 ++ rd ++ op : BitVec (7 + 5 + 5 + 3 + 5 + 7)).getLsbD i := rfl
theorem encA_bit (f5 : BitVec 5) (aqrl : BitVec 2) (rs2 : Reg) (rs1 : Reg) (f3 : BitVec 3) (rd : Reg) (op : BitVec 7) (i : Nat) : (encA f5 aqrl rs2 rs1 f3 rd op).getLsbD i =
    (f5 ++ aqrl ++ rs2 ++ rs1 ++ f3 ++ rd ++ op : BitVec (5 + 2 + 5 + 5 + 3 + 5 + 7)).getLsbD i := rfl
theorem encR4_bit (rs3 : Reg) (fmt : BitVec 2) (rs2 : Reg) (rs1 : Reg) (rm : BitVec 3) (rd : Reg) (op : BitVec 7) (i : Nat) : (encR4 rs3 fmt rs2 rs1 rm rd op).getLsbD i =
    (rs3 ++ fmt ++ rs2 ++ rs1 ++ rm ++ rd ++ op : BitVec (5 + 2 + 5 + 5 + 3 + 5 + 7)).getLsbD i := rfl
theorem encI_bit (imm : BitVec 12) (rs1 : Reg) (f3 : BitVec 3) (rd : Reg) (op : BitVec 7) (i : Nat) : (encI imm rs1 f3 rd op).getLsbD i =
    (imm ++ rs1 ++ f3 ++ rd ++ op : BitVec (12 + 5 + 3 + 5 + 7)).getLsbD i := rfl
theorem encSh6_bit (f6 : BitVec 6) (shamt : BitVec 6) (rs1 : Reg) (f3 : BitVec 3) (rd : Reg) (op : BitVec 7) (i : Nat) : (encSh6 f6 shamt rs1 f3 rd op).getLsbD i =
    (f6 ++ shamt ++ rs1 ++ f3 ++ rd ++ op : BitVec (6 + 6 + 5 + 3 + 5 + 7)).getLsbD i := rfl
theorem encS_bit (imm : BitVec 12) (rs2 : Reg) (rs1 : Reg) (f3 : BitVec 3) (op : BitVec 7) (i : Nat) : (encS imm rs2 rs1 f3 op).getLsbD i =
    (imm.extractLsb 11 5 ++ rs2 ++ rs1 ++ f3 ++ imm.extractLsb 4 0 ++ op : BitVec (7 + 5 + 5 + 3 + 5 + 7)).getLsbD i := rfl
theorem encB_bit (off : BitVec 12) (rs2 : Reg) (rs1 : Reg) (f3 : BitVec 3) (op : BitVec 7) (i : Nat) : (encB off rs2 rs1 f3 op).getLsbD i =
    (off.extractLsb 11 11 ++ off.extractLsb 9 4 ++ rs2 ++ rs1 ++ f3 ++ off.extractLsb 3 0 ++ off.extractLsb 10 10 ++ op : BitVec (1 + 6 + 5 + 5 + 3 + 4 + 1 + 7)).getLsbD i := rfl
theorem fImmS_bit (w : Word32) (i : Nat) : (fImmS w).getLsbD i =
    (w.extractLsb 31 25 ++ w.extractLsb 11 7 : BitVec (7 + 5)).getLsbD i := rfl
theorem fImmB_bit (w : Word32) (i : Nat) : (fImmB w).getLsbD i =
    (w.extractLsb 31 31 ++ w.extractLsb 7 7 ++ w.extractLsb 30 25 ++ w.extractLsb 11 8 : BitVec (1 + 1 + 6 + 4)).getLsbD i := rfl
theorem fImmJ_bit (w : Word32) (i : Nat) : (fImmJ w).getLsbD i =
    (w.extractLsb 31 31 ++ w.extractLsb 19 12 ++ w.extractLsb 20 20 ++ w.extractLsb 30 21 : BitVec (1 + 8 + 1 + 10)).getLsbD i := rfl
theorem cImm6_bit (w : Word32) (i : Nat) : (cImm6 w).getLsbD i =
    (w.extractLsb 12 12 ++ w.extractLsb 6 2 : BitVec (1 + 5)).getLsbD i := rfl
theorem cUimmCIW_bit (w : Word32) (i : Nat) : (cUimmCIW w).getLsbD i =
    (w.extractLsb 10 7 ++ w.extractLsb 12 11 ++ w.extractLsb 5 5 ++ w.extractLsb 6 6 : BitVec (4 + 2 + 1 + 1)).getLsbD i := rfl
theorem cUimmLW_bit (w : Word32) (i : Nat) : (cUimmLW w).getLsbD i =
    (w.extractLsb 5 5 ++ w.extractLsb 12 10 ++ w.extractLsb 6 6 : BitVec (1 + 3 + 1)).getLsbD i := rfl
theorem cUimmLD_bit (w : Word32) (i : Nat) : (cUimmLD w).getLsbD i =
    (w.extractLsb 6 5 ++ w.extractLsb 12 10 : BitVec (2 + 3)).getLsbD i := rfl
theorem cImm16spField_bit (w : Word32) (i : Nat) : (cImm16spField w).getLsbD i =
    (w.extractLsb 12 12 ++ w.extractLsb 4 3 ++ w.extractLsb 5 5 ++ w.extractLsb 2 2 ++ w.extractLsb 6 6 : BitVec (1 + 2 + 1 + 1 + 1)).getLsbD i := rfl
theorem cOffJ_bit (w : Word32) (i : Nat) : (cOffJ w).getLsbD i =
    (w.extractLsb 12 12 ++ w.extractLsb 8 8 ++ w.extractLsb 10 9 ++ w.extractLsb 6 6 ++ w.extractLsb 7 7 ++ w.extractLsb 2 2 ++ w.extractLsb 11 11 ++ w.extractLsb 5 3 : BitVec (1 + 1 + 2 + 1 + 1 + 1 + 1 + 3)).getLsbD i := rfl
theorem cOffB_bit (w : Word32) (i : Nat) : (cOffB w).getLsbD i =
    (w.extractLsb 12 12 ++ w.extractLsb 6 5 ++ w.extractLsb 2 2 ++ w.extractLsb 11 10 ++ w.extractLsb 4 3 : BitVec (1 + 2 + 1 + 2 + 2)).getLsbD i := rfl
theorem cUimmLWSP_bit (w : Word32) (i : Nat) : (cUimmLWSP w).getLsbD i =
    (w.extractLsb 3 2 ++ w.extractLsb 12 12 ++ w.extractLsb 6 4 : BitVec (2 + 1 + 3)).getLsbD i := rfl
theorem cUimmLDSP_bit (w : Word32) (i : Nat) : (cUimmLDSP w).getLsbD i =
    (w.extractLsb 4 2 ++ w.extractLsb 12 12 ++ w.extractLsb 6 5 : BitVec (3 + 1 + 2)).getLsbD i := rfl
theorem cUimmSWSP_bit (w : Word32) (i : Nat) : (cUimmSWSP w).getLsbD i =
    (w.extractLsb 8 7 ++ w.extractLsb 12 9 : BitVec (2 + 4)).getLsbD i := rfl
theorem cUimmSDSP_bit (w : Word32) (i : Nat) : (cUimmSDSP w).getLsbD i =
    (w.extractLsb 9 7 ++ w.extractLsb 12 10 : BitVec (3 + 3)).getLsbD i := rfl
theorem scCIW_bit (u : BitVec 8) (i : Nat) : (scCIW u).getLsbD i =
    (u.extractLsb 3 2 ++ u.extractLsb 7 4 ++ u.extractLsb 0 0 ++ u.extractLsb 1 1 : BitVec (2 + 4 + 1 + 1)).getLsbD i := rfl
theorem scLW_bit (u : BitVec 5) (i : Nat) : (scLW u).getLsbD i =
    (u.extractLsb 3 1 ++ u.extractLsb 0 0 ++ u.extractLsb 4 4 : BitVec (3 + 1 + 1)).getLsbD i := rfl
theorem scLD_bit (u : BitVec 5) (i : Nat) : (scLD u).getLsbD i =
    (u.extractLsb 2 0 ++ u.extractLsb 4 3 : BitVec (3 + 2)).getLsbD i := rfl
theorem sc16sp_bit (u : BitVec 6) (i : Nat) : (sc16sp u).getLsbD i =
    (u.extractLsb 0 0 ++ u.extractLsb 2 2 ++ u.extractLsb 4 3 ++ u.extractLsb 1 1 : BitVec (1 + 1 + 2 + 1)).getLsbD i := rfl
theorem scJ_bit (u : BitVec 11) (i : Nat) : (scJ u).getLsbD i =
    (u.extractLsb 10 10 ++ u.extractLsb 3 3 ++ u.extractLsb 8 7 ++ u.extractLsb 9 9 ++ u.extractLsb 5 5 ++ u.extractLsb 6 6 ++ u.extractLsb 2 0 ++ u.extractLsb 4 4 : BitVec (1 + 1 + 2 + 1 + 1 + 1 + 3 + 1)).getLsbD i := rfl
theorem scBhi_bit (u : BitVec 8) (i : Nat) : (scBhi u).getLsbD i =
    (u.extractLsb 7 7 ++ u.extractLsb 3 2 : BitVec (1 + 2)).getLsbD i := rfl
theorem scBlo_bit (u : BitVec 8) (i : Nat) : (scBlo u).getLsbD i =
    (u.extractLsb 6 5 ++ u.extractLsb 1 0 ++ u.extractLsb 4 4 : BitVec (2 + 2 + 1)).getLsbD i := rfl
theorem scLWSP_bit (u : BitVec 6) (i : Nat) : (scLWSP u).getLsbD i =
    (u.extractLsb 2 0 ++ u.extractLsb 5 4 : BitVec (3 + 2)).getLsbD i := rfl
theorem scLDSP_bit (u : BitVec 6) (i : Nat) : (scLDSP u).getLsbD i =
    (u.extractLsb 1 0 ++ u.extractLsb 5 3 : BitVec (2 + 3)).getLsbD i := rfl
theorem scSWSP_bit (u : BitVec 6) (i : Nat) : (scSWSP u).getLsbD i =
    (u.extractLsb 3 0 ++ u.extractLsb 5 4 : BitVec (4 + 2)).getLsbD i := rfl
theorem scSDSP_bit (u : BitVec 6) (i : Nat) : (scSDSP u).getLsbD i =
    (u.extractLsb 2 0 ++ u.extractLsb 5 3 : BitVec (3 + 3)).getLsbD i := rfl
theorem encCR_bit (f4 : BitVec 4) (r : Reg) (rs2 : Reg) (op : BitVec 2) (i : Nat) : (encCR f4 r rs2 op).getLsbD i =
    (f4 ++ r ++ rs2 ++ op : BitVec (4 + 5 + 5 + 2)).getLsbD i := rfl
theorem encCI_bit (f3 : BitVec 3) (hi : BitVec 1) (r : Reg) (lo : BitVec 5) (op : BitVec 2) (i : Nat) : (encCI f3 hi r lo op).getLsbD i =
    (f3 ++ hi ++ r ++ lo ++ op : BitVec (3 + 1 + 5 + 5 + 2)).getLsbD i := rfl
theorem encCSS_bit (f3 : BitVec 3) (imm : BitVec 6) (rs2 : Reg) (op : BitVec 2) (i : Nat) : (encCSS f3 imm rs2 op).getLsbD i =
    (f3 ++ imm ++ rs2 ++ op : BitVec (3 + 6 + 5 + 2)).getLsbD i := rfl
theorem encCIW_bit (f3 : BitVec 3) (imm : BitVec 8) (rd' : CReg) (op : BitVec 2) (i : Nat) : (encCIW f3 imm rd' op).getLsbD i =
    (f3 ++ imm ++ rd' ++ op : BitVec (3 + 8 + 3 + 2)).getLsbD i := rfl
theorem encCL_bit (f3 : BitVec 3) (imm : BitVec 5) (rs1' : CReg) (r' : CReg) (op : BitVec 2) (i : Nat) : (encCL f3 imm rs1' r' op).getLsbD i =
    (f3 ++ imm.extractLsb 4 2 ++ rs1' ++ imm.extractLsb 1 0 ++ r' ++ op : BitVec (3 + 3 + 3 + 2 + 3 + 2)).getLsbD i := rfl
theorem encCA_bit (f6 : BitVec 6) (rd' : CReg) (f2 : BitVec 2) (rs2' : CReg) (op : BitVec 2) (i : Nat) : (encCA f6 rd' f2 rs2' op).getLsbD i =
    (f6 ++ rd' ++ f2 ++ rs2' ++ op : BitVec (6 + 3 + 2 + 3 + 2)).getLsbD i := rfl
theorem encCBa_bit (f3 : BitVec 3) (hi : BitVec 1) (f2 : BitVec 2) (rd' : CReg) (lo : BitVec 5) (op : BitVec 2) (i : Nat) : (encCBa f3 hi f2 rd' lo op).getLsbD i =
    (f3 ++ hi ++ f2 ++ rd' ++ lo ++ op : BitVec (3 + 1 + 2 + 3 + 5 + 2)).getLsbD i := rfl
theorem encCB_bit (f3 : BitVec 3) (hi : BitVec 3) (rs1' : CReg) (lo : BitVec 5) (op : BitVec 2) (i : Nat) : (encCB f3 hi rs1' lo op).getLsbD i =
    (f3 ++ hi ++ rs1' ++ lo ++ op : BitVec (3 + 3 + 3 + 5 + 2)).getLsbD i := rfl
theorem encCJ_bit (f3 : BitVec 3) (t : BitVec 11) (op : BitVec 2) (i : Nat) : (encCJ f3 t op).getLsbD i =
    (f3 ++ t ++ op : BitVec (3 + 11 + 2)).getLsbD i := rfl

theorem zext32_bit (c : BitVec 16) (i : Nat) : (zext32 c).getLsbD i = (decide (i < 32) && c.getLsbD i) := by
  simp [zext32, BitVec.getLsbD_setWidth]

/-! ### Full-width formats: what the extractors read back, and what the masks leave -/

theorem fRd_encU (imm : BitVec 20) (rd : Reg) (op : BitVec 7) : fRd (encU imm rd op) = rd := by
  apply BitVec.eq_of_getLsbD_eq
  intro i hi
  simp only [fRd, BitVec.getLsbD_extractLsb, encU_bit, BitVec.getLsbD_append]
  interval_cases i <;> rfl
theorem fImmU_encU (imm : BitVec 20) (rd : Reg) (op : BitVec 7) : fImmU (encU imm rd op) = imm := by
  apply BitVec.eq_of_getLsbD_eq
  intro i hi
  simp only [fImmU, BitVec.getLsbD_extractLsb, encU_bit, BitVec.getLsbD_append]
  interval_cases i <;> rfl
theorem encU_mask7F (imm : BitVec 20) (rd : Reg) (op : BitVec 7) : encU imm rd op &&& 0x0000007F = encU 0 0 op := by
  apply BitVec.eq_of_getLsbD_eq
  intro i hi
  simp only [BitVec.getLsbD_and, encU_bit, BitVec.getLsbD_append]
  interval_cases i <;> simp
theorem fRd_encJ (off : BitVec 20) (rd : Reg) (op : BitVec 7) : fRd (encJ off rd op) = rd := by
  apply BitVec.eq_of_getLsbD_eq
  intro i hi
  simp only [fRd, BitVec.getLsbD_extractLsb, encJ_bit, BitVec.getLsbD_append]
  interval_cases i <;> rfl
theorem fImmJ_encJ (off : BitVec 20) (rd : Reg) (op : BitVec 7) : fImmJ (encJ off rd op) = off := by
  apply BitVec.eq_of_getLsbD_eq
  intro i hi
  simp only [fImmJ_bit, BitVec.getLsbD_extractLsb, encJ_bit, BitVec.getLsbD_append]
  interval_cases i <;> rfl
theorem encJ_mask7F (off : BitVec 20) (rd : Reg) (op : BitVec 7) : encJ off rd op &&& 0x0000007F = encJ 0 0 op := by
  apply BitVec.eq_of_getLsbD_eq
  intro i hi
  simp only [BitVec.getLsbD_and, encJ_bit, BitVec.getLsbD_append, BitVec.getLsbD_extractLsb]
  interval_cases i <;> simp
theorem fRd_encR (f7 : BitVec 7) (rs2 : Reg) (rs1 : Reg) (f3 : BitVec 3) (rd : Reg) (op : BitVec 7) : fRd (encR f7 rs2 rs1 f3 rd op) = rd := by
  apply BitVec.eq_of_getLsbD_eq
  intro i hi
  simp only [fRd, BitVec.getLsbD_extractLsb, encR_bit, BitVec.getLsbD_append]
  interval_cases i <;> rfl
theorem fRs1_encR (f7 : BitVec 7) (rs2 : Reg) (rs1 : Reg) (f3 : BitVec 3) (rd : Reg) (op : BitVec 7) : fRs1 (encR f7 rs2 rs1 f3 rd op) = rs1 := by
  apply BitVec.eq_of_getLsbD_eq
  intro i hi
  simp only [fRs1, BitVec.getLsbD_extractLsb, encR_bit, BitVec.getLsbD_append]
  interval_cases i <;> rfl
theorem fRs2_encR (f7 : BitVec 7) (rs2 : Reg) (rs1 : Reg) (f3 : BitVec 3) (rd : Reg) (op : BitVec 7) : fRs2 (encR f7 rs2 rs1 f3 rd op) = rs2 := by
  apply BitVec.eq_of_getLsbD_eq
  intro i hi
  simp only [fRs2, BitVec.getLsbD_extractLsb, encR_bit, BitVec.getLsbD_append]
  interval_cases i <;> rfl
theorem fRm_encR (f7 : BitVec 7) (rs2 : Reg) (rs1 : Reg) (f3 : BitVec 3) (rd : Reg) (op : BitVec 7) : fRm (encR f7 rs2 rs1 f3 rd op) = f3 := by
  apply BitVec.eq_of_getLsbD_eq
  intro i hi
  simp only [fRm, BitVec.getLsbD_extractLsb, encR_bit, BitVec.getLsbD_append]
  interval_cases i <;> rfl
theorem fShamt5_encR (f7 : BitVec 7) (rs2 : Reg) (rs1 : Reg) (f3 : BitVec 3) (rd : Reg) (op : BitVec 7) : fShamt5 (encR f7 rs2 rs1 f3 rd op) = rs2 := by
  apply BitVec.eq_of_getLsbD_eq
  intro i hi
  simp only [fShamt5, BitVec.getLsbD_extractLsb, encR_bit, BitVec.getLsbD_append]
  interval_cases i <;> rfl
theorem encR_maskFE00707F (f7 : BitVec 7) (rs2 : Reg) (rs1 : Reg) (f3 : BitVec 3) (rd : Reg) (op : BitVec 7) : encR f7 rs2 rs1 f3 rd op &&& 0xFE00707F = encR f7 0 0 f3 0 op := by
  apply BitVec.eq_of_getLsbD_eq
  intro i hi
  simp only [BitVec.getLsbD_and, encR_bit, BitVec.getLsbD_append]
  interval_cases i <;> simp
theorem encR_maskFE00007F (f7 : BitVec 7) (rs2 : Reg) (rs1 : Reg) (f3 : BitVec 3) (rd : Reg) (op : BitVec 7) : encR f7 rs2 rs1 f3 rd op &&& 0xFE00007F = encR f7 0 0 0 0 op := by
  apply BitVec.eq_of_getLsbD_eq
  intro i hi
  simp only [BitVec.getLsbD_and, encR_bit, BitVec.getLsbD_append]
  interval_cases i <;> simp
theorem encR_maskFFF0007F (f7 : BitVec 7) (rs2 : Reg) (rs1 : Reg) (f3 : BitVec 3) (rd : Reg) (op : BitVec 7) : encR f7 rs2 rs1 f3 rd op &&& 0xFFF0007F = encR f7 rs2 0 0 0 op := by
  apply BitVec.eq_of_getLsbD_eq
  intro i hi
  simp only [BitVec.getLsbD_and, encR_bit, BitVec.getLsbD_append]
  interval_cases i <;> simp
theorem encR_maskFFF0707F (f7 : BitVec 7) (rs2 : Reg) (rs1 : Reg) (f3 : BitVec 3) (rd : Reg) (op : BitVec 7) : encR f7 rs2 rs1 f3 rd op &&& 0xFFF0707F = encR f7 rs2 0 f3 0 op := by
  apply BitVec.eq_of_getLsbD_eq
  intro i hi
  simp only [BitVec.getLsbD_and, encR_bit, BitVec.getLsbD_append]
  interval_cases i <;> simp
theorem fRd_encA (f5 : BitVec 5) (aqrl : BitVec 2) (rs2 : Reg) (rs1 : Reg) (f3 : BitVec 3) (rd : Reg) (op : BitVec 7) : fRd (encA f5 aqrl rs2 rs1 f3 rd op) = rd := by
  apply BitVec.eq_of_getLsbD_eq
  intro i hi
  simp only [fRd, BitVec.getLsbD_extractLsb, encA_bit, BitVec.getLsbD_append]
  interval_cases i <;> rfl
theorem fRs1_encA (f5 : BitVec 5) (aqrl : BitVec 2) (rs2 : Reg) (rs1 : Reg) (f3 : BitVec 3) (rd : Reg) (op : BitVec 7) : fRs1 (encA f5 aqrl rs2 rs1 f3 rd op) = rs1 := by
  apply BitVec.eq_of_getLsbD_eq
  intro i hi
  simp only [fRs1, BitVec.getLsbD_extractLsb, encA_bit, BitVec.getLsbD_append]
  interval_cases i <;> rfl
theorem fRs2_encA (f5 : BitVec 5) (aqrl : BitVec 2) (rs2 : Reg) (rs1 : Reg) (f3 : BitVec 3) (rd : Reg) (op : BitVec 7) : fRs2 (encA f5 aqrl rs2 rs1 f3 rd op) = rs2 := by
  apply BitVec.eq_of_getLsbD_eq
  intro i hi
  simp only [fRs2, BitVec.getLsbD_extractLsb, encA_bit, BitVec.getLsbD_append]
  interval_cases i <;> rfl
theorem fAqRl_encA (f5 : BitVec 5) (aqrl : BitVec 2) (rs2 : Reg) (rs1 : Reg) (f3 : BitVec 3) (rd : Reg) (op : BitVec 7) : fAqRl (encA f5 aqrl rs2 rs1 f3 rd op) = aqrl := by
  apply BitVec.eq_of_getLsbD_eq
  intro i hi
  simp only [fAqRl, BitVec.getLsbD_extractLsb, encA_bit, BitVec.getLsbD_append]
  interval_cases i <;> rfl
theorem encA_maskF800707F (f5 : BitVec 5) (aqrl : BitVec 2) (rs2 : Reg) (rs1 : Reg) (f3 : BitVec 3) (rd : Reg) (op : BitVec 7) : encA f5 aqrl rs2 rs1 f3 rd op &&& 0xF800707F = encA f5 0 0 0 f3 0 op := by
  apply BitVec.eq_of_getLsbD_eq
  intro i hi
  simp only [BitVec.getLsbD_and, encA_bit, BitVec.getLsbD_append]
  interval_cases i <;> simp
theorem encA_maskF9F0707F (f5 : BitVec 5) (aqrl : BitVec 2) (rs2 : Reg) (rs1 : Reg) (f3 : BitVec 3) (rd : Reg) (op : BitVec 7) : encA f5 aqrl rs2 rs1 f3 rd op &&& 0xF9F0707F = encA f5 0 rs2 0 f3 0 op := by
  apply BitVec.eq_of_getLsbD_eq
  intro i hi
  simp only [BitVec.getLsbD_and, encA_bit, BitVec.getLsbD_append]
  interval_cases i <;> simp
theorem fRd_encR4 (rs3 : Reg) (fmt : BitVec 2) (rs2 : Reg) (rs1 : Reg) (rm : BitVec 3) (rd : Reg) (op : BitVec 7) : fRd (encR4 rs3 fmt rs2 rs1 rm rd op) = rd := by
  apply BitVec.eq_of_getLsbD_eq
  intro i hi
  simp only [fRd, BitVec.getLsbD_extractLsb, encR4_bit, BitVec.getLsbD_append]
  interval_cases i <;> rfl
theorem fRs1_encR4 (rs3 : Reg) (fmt : BitVec 2) (rs2 : Reg) (rs1 : Reg) (rm : BitVec 3) (rd : Reg) (op : BitVec 7) : fRs1 (encR4 rs3 fmt rs2 rs1 rm rd op) = rs1 := by
  apply BitVec.eq_of_getLsbD_eq
  intro i hi
  simp only [fRs1, BitVec.getLsbD_extractLsb, encR4_bit, BitVec.getLsbD_append]
  interval_cases i <;> rfl
theorem fRs2_encR4 (rs3 : Reg) (fmt : BitVec 2) (rs2 : Reg) (rs1 : Reg) (rm : BitVec 3) (rd : Reg) (op : BitVec 7) : fRs2 (encR4 rs3 fmt rs2 rs1 rm rd op) = rs2 := by
  apply BitVec.eq_of_getLsbD_eq
  intro i hi
  simp only [fRs2, BitVec.getLsbD_extractLsb, encR4_bit, BitVec.getLsbD_append]
  interval_cases i <;> rfl
theorem fRs3_encR4 (rs3 : Reg) (fmt : BitVec 2) (rs2 : Reg) (rs1 : Reg) (rm : BitVec 3) (rd : Reg) (op : BitVec 7) : fRs3 (encR4 rs3 fmt rs2 rs1 rm rd op) = rs3 := by
  apply BitVec.eq_of_getLsbD_eq
  intro i hi
  simp only [fRs3, BitVec.getLsbD_extractLsb, encR4_bit, BitVec.getLsbD_append]
  interval_cases i <;> rfl
theorem fRm_encR4 (rs3 : Reg) (fmt : BitVec 2) (rs2 : Reg) (rs1 : Reg) (rm : BitVec 3) (rd : Reg) (op : BitVec 7) : fRm (encR4 rs3 fmt rs2 rs1 rm rd op) = rm := by
  apply BitVec.eq_of_getLsbD_eq
  intro i hi
  simp only [fRm, BitVec.getLsbD_extractLsb, encR4_bit, BitVec.getLsbD_append]
  interval_cases i <;> rfl
theorem encR4_mask600007F (rs3 : Reg) (fmt : BitVec 2) (rs2 : Reg) (rs1 : Reg) (rm : BitVec 3) (rd : Reg) (op : BitVec 7) : encR4 rs3 fmt rs2 rs1 rm rd op &&& 0x0600007F = encR4 0 fmt 0 0 0 0 op := by
  apply BitVec.eq_of_getLsbD_eq
  intro i hi
  simp only [BitVec.getLsbD_and, encR4_bit, BitVec.getLsbD_append]
  interval_cases i <;> simp
theorem fRd_encI (imm : BitVec 12) (rs1 : Reg) (f3 : BitVec 3) (rd : Reg) (op : BitVec 7) : fRd (encI imm rs1 f3 rd op) = rd := by
  apply BitVec.eq_of_getLsbD_eq
  intro i hi
  simp only [fRd, BitVec.getLsbD_extractLsb, encI_bit, BitVec.getLsbD_append]
  interval_cases i <;> rfl
theorem fRs1_encI (imm : BitVec 12) (rs1 : Reg) (f3 : BitVec 3) (rd : Reg) (op : BitVec 7) : fRs1 (encI imm rs1 f3 rd op) = rs1 := by
  apply BitVec.eq_of_getLsbD_eq
  intro i hi
  simp only [fRs1, BitVec.getLsbD_extractLsb, encI_bit, BitVec.getLsbD_append]
  interval_cases i <;> rfl
theorem fImmI_encI (imm : BitVec 12) (rs1 : Reg) (f3 : BitVec 3) (rd : Reg) (op : BitVec 7) : fImmI (encI imm rs1 f3 rd op) = imm := by
  apply BitVec.eq_of_getLsbD_eq
  intro i hi
  simp only [fImmI, BitVec.getLsbD_extractLsb, encI_bit, BitVec.getLsbD_append]
  interval_cases i <;> rfl
theorem encI_mask707F (imm : BitVec 12) (rs1 : Reg) (f3 : BitVec 3) (rd : Reg) (op : BitVec 7) : encI imm rs1 f3 rd op &&& 0x0000707F = encI 0 0 f3 0 op := by
  apply BitVec.eq_of_getLsbD_eq
  intro i hi
  simp only [BitVec.getLsbD_and, encI_bit, BitVec.getLsbD_append]
  interval_cases i <;> simp
theorem fRd_encSh6 (f6 : BitVec 6) (shamt : BitVec 6) (rs1 : Reg) (f3 : BitVec 3) (rd : Reg) (op : BitVec 7) : fRd (encSh6 f6 shamt rs1 f3 rd op) = rd := by
  apply BitVec.eq_of_getLsbD_eq
  intro i hi
  simp only [fRd, BitVec.getLsbD_extractLsb, encSh6_bit, BitVec.getLsbD_append]
  interval_cases i <;> rfl
theorem fRs1_encSh6 (f6 : BitVec 6) (shamt : BitVec 6) (rs1 : Reg) (f3 : BitVec 3) (rd : Reg) (op : BitVec 7) : fRs1 (encSh6 f6 shamt rs1 f3 rd op) = rs1 := by
  apply BitVec.eq_of_getLsbD_eq
  intro i hi
  simp only [fRs1, BitVec.getLsbD_extractLsb, encSh6_bit, BitVec.getLsbD_append]
  interval_cases i <;> rfl
theorem fShamt6_encSh6 (f6 : BitVec 6) (shamt : BitVec 6) (rs1 : Reg) (f3 : BitVec 3) (rd : Reg) (op : BitVec 7) : fShamt6 (encSh6 f6 shamt rs1 f3 rd op) = shamt := by
  apply BitVec.eq_of_getLsbD_eq
  intro i hi
  simp only [fShamt6, BitVec.getLsbD_extractLsb, encSh6_bit, BitVec.getLsbD_append]
  interval_cases i <;> rfl
theorem encSh6_maskFC00707F (f6 : BitVec 6) (shamt : BitVec 6) (rs1 : Reg) (f3 : BitVec 3) (rd : Reg) (op : BitVec 7) : encSh6 f6 shamt rs1 f3 rd op &&& 0xFC00707F = encSh6 f6 0 0 f3 0 op := by
  apply BitVec.eq_of_getLsbD_eq
  intro i hi
  simp only [BitVec.getLsbD_and, encSh6_bit, BitVec.getLsbD_append]
  interval_cases i <;> simp
theorem fRs1_encS (imm : BitVec 12) (rs2 : Reg) (rs1 : Reg) (f3 : BitVec 3) (op : BitVec 7) : fRs1 (encS imm rs2 rs1 f3 op) = rs1 := by
  apply BitVec.eq_of_getLsbD_eq
  intro i hi
  simp only [fRs1, BitVec.getLsbD_extractLsb, encS_bit, BitVec.getLsbD_append]
  interval_cases i <;> rfl
theorem fRs2_encS (imm : BitVec 12) (rs2 : Reg) (rs1 : Reg) (f3 : BitVec 3) (op : BitVec 7) : fRs2 (encS imm rs2 rs1 f3 op) = rs2 := by
  apply BitVec.eq_of_getLsbD_eq
  intro i hi
  simp only [fRs2, BitVec.getLsbD_extractLsb, encS_bit, BitVec.getLsbD_append]
  interval_cases i <;> rfl
theorem fImmS_encS (imm : BitVec 12) (rs2 : Reg) (rs1 : Reg) (f3 : BitVec 3) (op : BitVec 7) : fImmS (encS imm rs2 rs1 f3 op) = imm := by
  apply BitVec.eq_of_getLsbD_eq
  intro i hi
  simp only [fImmS_bit, BitVec.getLsbD_extractLsb, encS_bit, BitVec.getLsbD_append]
  interval_cases i <;> rfl
theorem encS_mask707F (imm : BitVec 12) (rs2 : Reg) (rs1 : Reg) (f3 : BitVec 3) (op : BitVec 7) : encS imm rs2 rs1 f3 op &&& 0x0000707F = encS 0 0 0 f3 op := by
  apply BitVec.eq_of_getLsbD_eq
  intro i hi
  simp only [BitVec.getLsbD_and, encS_bit, BitVec.getLsbD_append, BitVec.getLsbD_extractLsb]
  interval_cases i <;> simp
theorem fRs1_encB (off : BitVec 12) (rs2 : Reg) (rs1 : Reg) (f3 : BitVec 3) (op : BitVec 7) : fRs1 (encB off rs2 rs1 f3 op) = rs1 := by
  apply BitVec.eq_of_getLsbD_eq
  intro i hi
  simp only [fRs1, BitVec.getLsbD_extractLsb, encB_bit, BitVec.getLsbD_append]
  interval_cases i <;> rfl
theorem fRs2_encB (off : BitVec 12) (rs2 : Reg) (rs1 : Reg) (f3 : BitVec 3) (op : BitVec 7) : fRs2 (encB off rs2 rs1 f3 op) = rs2 := by
  apply BitVec.eq_of_getLsbD_eq
  intro i hi
  simp only [fRs2, BitVec.getLsbD_extractLsb, encB_bit, BitVec.getLsbD_append]
  interval_cases i <;> rfl
theorem fImmB_encB (off : BitVec 12) (rs2 : Reg) (rs1 : Reg) (f3 : BitVec 3) (op : BitVec 7) : fImmB (encB off rs2 rs1 f3 op) = off := by
  apply BitVec.eq_of_getLsbD_eq
  intro i hi
  simp only [fImmB_bit, BitVec.getLsbD_extractLsb, encB_bit, BitVec.getLsbD_append]
  interval_cases i <;> rfl
theorem encB_mask707F (off : BitVec 12) (rs2 : Reg) (rs1 : Reg) (f3 : BitVec 3) (op : BitVec 7) : encB off rs2 rs1 f3 op &&& 0x0000707F = encB 0 0 0 f3 op := by
  apply BitVec.eq_of_getLsbD_eq
  intro i hi
  simp only [BitVec.getLsbD_and, encB_bit, BitVec.getLsbD_append, BitVec.getLsbD_extractLsb]
  interval_cases i <;> simp

/-! ### Compressed formats, zero-extended (R80, R98) -/

theorem encCR_maskF07F (f4 : BitVec 4) (r : Reg) (rs2 : Reg) (op : BitVec 2) : zext32 (encCR f4 r rs2 op) &&& 0x0000F07F = zext32 (encCR f4 0 rs2 op) := by
  apply BitVec.eq_of_getLsbD_eq
  intro i hi
  simp only [BitVec.getLsbD_and, zext32_bit, encCR_bit, BitVec.getLsbD_append]
  interval_cases i <;> simp
theorem encCR_maskF003 (f4 : BitVec 4) (r : Reg) (rs2 : Reg) (op : BitVec 2) : zext32 (encCR f4 r rs2 op) &&& 0x0000F003 = zext32 (encCR f4 0 0 op) := by
  apply BitVec.eq_of_getLsbD_eq
  intro i hi
  simp only [BitVec.getLsbD_and, zext32_bit, encCR_bit, BitVec.getLsbD_append]
  interval_cases i <;> simp
theorem encCI_maskE003 (f3 : BitVec 3) (hi : BitVec 1) (r : Reg) (lo : BitVec 5) (op : BitVec 2) : zext32 (encCI f3 hi r lo op) &&& 0x0000E003 = zext32 (encCI f3 0 0 0 op) := by
  apply BitVec.eq_of_getLsbD_eq
  intro i hi
  simp only [BitVec.getLsbD_and, zext32_bit, encCI_bit, BitVec.getLsbD_append]
  interval_cases i <;> simp
theorem encCI_maskEF83 (f3 : BitVec 3) (hi : BitVec 1) (r : Reg) (lo : BitVec 5) (op : BitVec 2) : zext32 (encCI f3 hi r lo op) &&& 0x0000EF83 = zext32 (encCI f3 0 r 0 op) := by
  apply BitVec.eq_of_getLsbD_eq
  intro i hi
  simp only [BitVec.getLsbD_and, zext32_bit, encCI_bit, BitVec.getLsbD_append]
  interval_cases i <;> simp
theorem encCSS_maskE003 (f3 : BitVec 3) (imm : BitVec 6) (rs2 : Reg) (op : BitVec 2) : zext32 (encCSS f3 imm rs2 op) &&& 0x0000E003 = zext32 (encCSS f3 0 0 op) := by
  apply BitVec.eq_of_getLsbD_eq
  intro i hi
  simp only [BitVec.getLsbD_and, zext32_bit, encCSS_bit, BitVec.getLsbD_append]
  interval_cases i <;> simp
theorem encCIW_maskE003 (f3 : BitVec 3) (imm : BitVec 8) (rd' : CReg) (op : BitVec 2) : zext32 (encCIW f3 imm rd' op) &&& 0x0000E003 = zext32 (encCIW f3 0 0 op) := by
  apply BitVec.eq_of_getLsbD_eq
  intro i hi
  simp only [BitVec.getLsbD_and, zext32_bit, encCIW_bit, BitVec.getLsbD_append]
  interval_cases i <;> simp
theorem encCL_maskE003 (f3 : BitVec 3) (imm : BitVec 5) (rs1' : CReg) (r' : CReg) (op : BitVec 2) : zext32 (encCL f3 imm rs1' r' op) &&& 0x0000E003 = zext32 (encCL f3 0 0 0 op) := by
  apply BitVec.eq_of_getLsbD_eq
  intro i hi
  simp only [BitVec.getLsbD_and, zext32_bit, encCL_bit, BitVec.getLsbD_append, BitVec.getLsbD_extractLsb]
  interval_cases i <;> simp
theorem encCA_maskFC63 (f6 : BitVec 6) (rd' : CReg) (f2 : BitVec 2) (rs2' : CReg) (op : BitVec 2) : zext32 (encCA f6 rd' f2 rs2' op) &&& 0x0000FC63 = zext32 (encCA f6 0 f2 0 op) := by
  apply BitVec.eq_of_getLsbD_eq
  intro i hi
  simp only [BitVec.getLsbD_and, zext32_bit, encCA_bit, BitVec.getLsbD_append]
  interval_cases i <;> simp
theorem encCBa_maskEC03 (f3 : BitVec 3) (hi : BitVec 1) (f2 : BitVec 2) (rd' : CReg) (lo : BitVec 5) (op : BitVec 2) : zext32 (encCBa f3 hi f2 rd' lo op) &&& 0x0000EC03 = zext32 (encCBa f3 0 f2 0 0 op) := by
  apply BitVec.eq_of_getLsbD_eq
  intro i hi
  simp only [BitVec.getLsbD_and, zext32_bit, encCBa_bit, BitVec.getLsbD_append]
  interval_cases i <;> simp
theorem encCB_maskE003 (f3 : BitVec 3) (hi : BitVec 3) (rs1' : CReg) (lo : BitVec 5) (op : BitVec 2) : zext32 (encCB f3 hi rs1' lo op) &&& 0x0000E003 = zext32 (encCB f3 0 0 0 op) := by
  apply BitVec.eq_of_getLsbD_eq
  intro i hi
  simp only [BitVec.getLsbD_and, zext32_bit, encCB_bit, BitVec.getLsbD_append]
  interval_cases i <;> simp
theorem encCJ_maskE003 (f3 : BitVec 3) (t : BitVec 11) (op : BitVec 2) : zext32 (encCJ f3 t op) &&& 0x0000E003 = zext32 (encCJ f3 0 op) := by
  apply BitVec.eq_of_getLsbD_eq
  intro i hi
  simp only [BitVec.getLsbD_and, zext32_bit, encCJ_bit, BitVec.getLsbD_append]
  interval_cases i <;> simp
theorem cRd_encCR (f4 : BitVec 4) (r : Reg) (rs2 : Reg) (op : BitVec 2) : cRd (zext32 (encCR f4 r rs2 op)) = r := by
  apply BitVec.eq_of_getLsbD_eq
  intro i hi
  simp only [cRd, BitVec.getLsbD_extractLsb, zext32_bit, BitVec.getLsbD_append, encCR_bit]
  interval_cases i <;> rfl
theorem cRs2_encCR (f4 : BitVec 4) (r : Reg) (rs2 : Reg) (op : BitVec 2) : cRs2 (zext32 (encCR f4 r rs2 op)) = rs2 := by
  apply BitVec.eq_of_getLsbD_eq
  intro i hi
  simp only [cRs2, BitVec.getLsbD_extractLsb, zext32_bit, BitVec.getLsbD_append, encCR_bit]
  interval_cases i <;> rfl
theorem cRd_encCI (f3 : BitVec 3) (hi : BitVec 1) (r : Reg) (lo : BitVec 5) (op : BitVec 2) : cRd (zext32 (encCI f3 hi r lo op)) = r := by
  apply BitVec.eq_of_getLsbD_eq
  intro i hi
  simp only [cRd, BitVec.getLsbD_extractLsb, zext32_bit, BitVec.getLsbD_append, encCI_bit]
  interval_cases i <;> rfl
theorem cRs2_encCSS (f3 : BitVec 3) (imm : BitVec 6) (rs2 : Reg) (op : BitVec 2) : cRs2 (zext32 (encCSS f3 imm rs2 op)) = rs2 := by
  apply BitVec.eq_of_getLsbD_eq
  intro i hi
  simp only [cRs2, BitVec.getLsbD_extractLsb, zext32_bit, BitVec.getLsbD_append, encCSS_bit]
  interval_cases i <;> rfl
theorem cRd'_encCIW (f3 : BitVec 3) (imm : BitVec 8) (rd' : CReg) (op : BitVec 2) : cRd' (zext32 (encCIW f3 imm rd' op)) = rd' := by
  apply BitVec.eq_of_getLsbD_eq
  intro i hi
  simp only [cRd', BitVec.getLsbD_extractLsb, zext32_bit, BitVec.getLsbD_append, encCIW_bit]
  interval_cases i <;> rfl
theorem cRs1'_encCL (f3 : BitVec 3) (imm : BitVec 5) (rs1' : CReg) (r' : CReg) (op : BitVec 2) : cRs1' (zext32 (encCL f3 imm rs1' r' op)) = rs1' := by
  apply BitVec.eq_of_getLsbD_eq
  intro i hi
  simp only [cRs1', BitVec.getLsbD_extractLsb, zext32_bit, BitVec.getLsbD_append, encCL_bit]
  interval_cases i <;> rfl
theorem cRd'_encCL (f3 : BitVec 3) (imm : BitVec 5) (rs1' : CReg) (r' : CReg) (op : BitVec 2) : cRd' (zext32 (encCL f3 imm rs1' r' op)) = r' := by
  apply BitVec.eq_of_getLsbD_eq
  intro i hi
  simp only [cRd', BitVec.getLsbD_extractLsb, zext32_bit, BitVec.getLsbD_append, encCL_bit]
  interval_cases i <;> rfl
theorem cRs2'_encCL (f3 : BitVec 3) (imm : BitVec 5) (rs1' : CReg) (r' : CReg) (op : BitVec 2) : cRs2' (zext32 (encCL f3 imm rs1' r' op)) = r' := by
  apply BitVec.eq_of_getLsbD_eq
  intro i hi
  simp only [cRs2', BitVec.getLsbD_extractLsb, zext32_bit, BitVec.getLsbD_append, encCL_bit]
  interval_cases i <;> rfl
theorem cRs1'_encCA (f6 : BitVec 6) (rd' : CReg) (f2 : BitVec 2) (rs2' : CReg) (op : BitVec 2) : cRs1' (zext32 (encCA f6 rd' f2 rs2' op)) = rd' := by
  apply BitVec.eq_of_getLsbD_eq
  intro i hi
  simp only [cRs1', BitVec.getLsbD_extractLsb, zext32_bit, BitVec.getLsbD_append, encCA_bit]
  interval_cases i <;> rfl
theorem cRs2'_encCA (f6 : BitVec 6) (rd' : CReg) (f2 : BitVec 2) (rs2' : CReg) (op : BitVec 2) : cRs2' (zext32 (encCA f6 rd' f2 rs2' op)) = rs2' := by
  apply BitVec.eq_of_getLsbD_eq
  intro i hi
  simp only [cRs2', BitVec.getLsbD_extractLsb, zext32_bit, BitVec.getLsbD_append, encCA_bit]
  interval_cases i <;> rfl
theorem cRs1'_encCBa (f3 : BitVec 3) (hi : BitVec 1) (f2 : BitVec 2) (rd' : CReg) (lo : BitVec 5) (op : BitVec 2) : cRs1' (zext32 (encCBa f3 hi f2 rd' lo op)) = rd' := by
  apply BitVec.eq_of_getLsbD_eq
  intro i hi
  simp only [cRs1', BitVec.getLsbD_extractLsb, zext32_bit, BitVec.getLsbD_append, encCBa_bit]
  interval_cases i <;> rfl
theorem cRs1'_encCB (f3 : BitVec 3) (hi : BitVec 3) (rs1' : CReg) (lo : BitVec 5) (op : BitVec 2) : cRs1' (zext32 (encCB f3 hi rs1' lo op)) = rs1' := by
  apply BitVec.eq_of_getLsbD_eq
  intro i hi
  simp only [cRs1', BitVec.getLsbD_extractLsb, zext32_bit, BitVec.getLsbD_append, encCB_bit]
  interval_cases i <;> rfl
theorem cImm6_encCI (f3 : BitVec 3) (r : Reg) (op : BitVec 2) (u : BitVec 6) : cImm6 (zext32 (encCI f3 (u.extractLsb 5 5) r (u.extractLsb 4 0) op)) = u := by
  apply BitVec.eq_of_getLsbD_eq
  intro i hi
  simp only [cImm6_bit, BitVec.getLsbD_extractLsb, zext32_bit, BitVec.getLsbD_append, encCI_bit]
  interval_cases i <;> rfl
theorem cImm16spField_encCI (f3 : BitVec 3) (r : Reg) (op : BitVec 2) (u : BitVec 6) : cImm16spField (zext32 (encCI f3 (u.extractLsb 5 5) r (sc16sp u) op)) = u := by
  apply BitVec.eq_of_getLsbD_eq
  intro i hi
  simp only [cImm16spField_bit, BitVec.getLsbD_extractLsb, zext32_bit, BitVec.getLsbD_append, encCI_bit, sc16sp_bit]
  interval_cases i <;> rfl
theorem cUimmLWSP_encCI (f3 : BitVec 3) (r : Reg) (op : BitVec 2) (u : BitVec 6) : cUimmLWSP (zext32 (encCI f3 (u.extractLsb 3 3) r (scLWSP u) op)) = u := by
  apply BitVec.eq_of_getLsbD_eq
  intro i hi
  simp only [cUimmLWSP_bit, BitVec.getLsbD_extractLsb, zext32_bit, BitVec.getLsbD_append, encCI_bit, scLWSP_bit]
  interval_cases i <;> rfl
theorem cUimmLDSP_encCI (f3 : BitVec 3) (r : Reg) (op : BitVec 2) (u : BitVec 6) : cUimmLDSP (zext32 (encCI f3 (u.extractLsb 2 2) r (scLDSP u) op)) = u := by
  apply BitVec.eq_of_getLsbD_eq
  intro i hi
  simp only [cUimmLDSP_bit, BitVec.getLsbD_extractLsb, zext32_bit, BitVec.getLsbD_append, encCI_bit, scLDSP_bit]
  interval_cases i <;> rfl
theorem cUimmSWSP_encCSS (f3 : BitVec 3) (r : Reg) (op : BitVec 2) (u : BitVec 6) : cUimmSWSP (zext32 (encCSS f3 (scSWSP u) r op)) = u := by
  apply BitVec.eq_of_getLsbD_eq
  intro i hi
  simp only [cUimmSWSP_bit, BitVec.getLsbD_extractLsb, zext32_bit, BitVec.getLsbD_append, encCSS_bit, scSWSP_bit]
  interval_cases i <;> rfl
theorem cUimmSDSP_encCSS (f3 : BitVec 3) (r : Reg) (op : BitVec 2) (u : BitVec 6) : cUimmSDSP (zext32 (encCSS f3 (scSDSP u) r op)) = u := by
  apply BitVec.eq_of_getLsbD_eq
  intro i hi
  simp only [cUimmSDSP_bit, BitVec.getLsbD_extractLsb, zext32_bit, BitVec.getLsbD_append, encCSS_bit, scSDSP_bit]
  interval_cases i <;> rfl
theorem cUimmCIW_encCIW (f3 : BitVec 3) (r : CReg) (op : BitVec 2) (u : BitVec 8) : cUimmCIW (zext32 (encCIW f3 (scCIW u) r op)) = u := by
  apply BitVec.eq_of_getLsbD_eq
  intro i hi
  simp only [cUimmCIW_bit, BitVec.getLsbD_extractLsb, zext32_bit, BitVec.getLsbD_append, encCIW_bit, scCIW_bit]
  interval_cases i <;> rfl
theorem cUimmLW_encCL (f3 : BitVec 3) (r r2 : CReg) (op : BitVec 2) (u : BitVec 5) : cUimmLW (zext32 (encCL f3 (scLW u) r r2 op)) = u := by
  apply BitVec.eq_of_getLsbD_eq
  intro i hi
  simp only [cUimmLW_bit, BitVec.getLsbD_extractLsb, zext32_bit, BitVec.getLsbD_append, encCL_bit, scLW_bit]
  interval_cases i <;> rfl
theorem cUimmLD_encCL (f3 : BitVec 3) (r r2 : CReg) (op : BitVec 2) (u : BitVec 5) : cUimmLD (zext32 (encCL f3 (scLD u) r r2 op)) = u := by
  apply BitVec.eq_of_getLsbD_eq
  intro i hi
  simp only [cUimmLD_bit, BitVec.getLsbD_extractLsb, zext32_bit, BitVec.getLsbD_append, encCL_bit, scLD_bit]
  interval_cases i <;> rfl
theorem cImm6_encCBa (f3 : BitVec 3) (f2 : BitVec 2) (r : CReg) (op : BitVec 2) (u : BitVec 6) : cImm6 (zext32 (encCBa f3 (u.extractLsb 5 5) f2 r (u.extractLsb 4 0) op)) = u := by
  apply BitVec.eq_of_getLsbD_eq
  intro i hi
  simp only [cImm6_bit, BitVec.getLsbD_extractLsb, zext32_bit, BitVec.getLsbD_append, encCBa_bit]
  interval_cases i <;> rfl
theorem cOffB_encCB (f3 : BitVec 3) (r : CReg) (op : BitVec 2) (u : BitVec 8) : cOffB (zext32 (encCB f3 (scBhi u) r (scBlo u) op)) = u := by
  apply BitVec.eq_of_getLsbD_eq
  intro i hi
  simp only [cOffB_bit, BitVec.getLsbD_extractLsb, zext32_bit, BitVec.getLsbD_append, encCB_bit, scBhi_bit, scBlo_bit]
  interval_cases i <;> rfl
theorem cOffJ_encCJ (f3 : BitVec 3) (op : BitVec 2) (u : BitVec 11) : cOffJ (zext32 (encCJ f3 (scJ u) op)) = u := by
  apply BitVec.eq_of_getLsbD_eq
  intro i hi
  simp only [cOffJ_bit, BitVec.getLsbD_extractLsb, zext32_bit, BitVec.getLsbD_append, encCJ_bit, scJ_bit]
  interval_cases i <;> rfl

end Sys2Proof
end

