-- ==== Sys2Proof/Laws/Float.lean ====
section
/-! SUPPORT. Laws/Float.lean: the value of a pattern, its sign and its magnitude. -/
namespace Sys2Proof.Machine

@[simp] theorem natAbs_fValue (a : Word32) : (fValue a).natAbs = fUnits a := by unfold fValue; split <;> simp

theorem fValue_neg_iff (a : Word32) : fValue a < 0 ↔ a.msb = true ∧ fUnits a ≠ 0 := by
  unfold fValue fSign
  cases a.msb <;> simp
  omega

/-- A pattern that is no NaN and no infinity is a zero exactly when its value is 0. -/
theorem isZero_iff_fValue {a : Word32} (_ : isNaN a = false) (_ : isInf a = false) :
    isZero a = true ↔ fValue a = 0 := by
  rw [← Int.natAbs_eq_zero, natAbs_fValue]
  unfold isZero fUnits
  split <;> simp_all

/-- The sign of a product that is not 0. -/
theorem fValue_mul_neg {a b : Word32} (h : fValue a * fValue b ≠ 0) :
    decide (fValue a * fValue b < 0) = (fSign a != fSign b) := by
  obtain ⟨ha, hb⟩ := mul_ne_zero_iff.mp h
  have ua : fUnits a ≠ 0 := by rw [← natAbs_fValue]; omega
  have ub : fUnits b ≠ 0 := by rw [← natAbs_fValue]; omega
  have pa := fValue_neg_iff a
  have pb := fValue_neg_iff b
  unfold fSign
  cases ea : a.msb <;> cases eb : b.msb <;> simp [ea, eb, ua, ub] at pa pb ⊢
  · exact mul_nonneg pa pb
  · exact mul_neg_of_pos_of_neg (lt_of_le_of_ne pa (Ne.symm ha)) pb
  · exact mul_neg_of_neg_of_pos pa (lt_of_le_of_ne pb (Ne.symm hb))
  · exact mul_nonneg_of_nonpos_of_nonpos pa.le pb.le

end Sys2Proof.Machine
end

