-- ==== Sys2Proof/Laws/State.lean ====
section
/-! SUPPORT. Laws/State.lean: what each field and accessor reads after each update of the state. -/
namespace Sys2Proof.Machine

/-! ### The index of an integer register -/

theorem Reg.toNat_ne_zero {r : Reg} (h : r ≠ 0#5) : r.toNat ≠ 0 :=
  fun e => h (BitVec.eq_of_toNat_eq e)

theorem State.getX_of_ne (s : State) {r : Reg} (h : r ≠ 0#5) :
    s.getX r = s.x[r.toNat - 1]'(by have := r.isLt; have := Reg.toNat_ne_zero h; omega) := by
  simp [State.getX, h]

@[simp] theorem State.getX_zero (s : State) : s.getX 0#5 = 0#64 := by simp [State.getX]
@[simp] theorem State.setX_zero (s : State) (v : Word) : s.setX 0#5 v = s := by simp [State.setX]

/-! ### Integer register writes -/

@[simp] theorem State.setX_f (s : State) (r : Reg) (v : Word) : (s.setX r v).f = s.f := by
  unfold State.setX; split <;> rfl
@[simp] theorem State.setX_pc (s : State) (r : Reg) (v : Word) : (s.setX r v).pc = s.pc := by
  unfold State.setX; split <;> rfl
@[simp] theorem State.setX_mem (s : State) (r : Reg) (v : Word) : (s.setX r v).mem = s.mem := by
  unfold State.setX; split <;> rfl
@[simp] theorem State.setX_resv (s : State) (r : Reg) (v : Word) : (s.setX r v).resv = s.resv := by
  unfold State.setX; split <;> rfl
@[simp] theorem State.setX_frmDyn (s : State) (r : Reg) (v : Word) : (s.setX r v).frmDyn = s.frmDyn := by
  unfold State.setX; split <;> rfl
@[simp] theorem State.setX_facade (s : State) (r : Reg) (v : Word) : (s.setX r v).facade = s.facade := by
  unfold State.setX; split <;> rfl
@[simp] theorem State.setX_refuses (s : State) (r : Reg) (v : Word) (a : Access) :
    (s.setX r v).refuses a = s.refuses a := by simp [State.refuses]
@[simp] theorem State.setX_getF (s : State) (r r' : Reg) (v : Word) : (s.setX r v).getF r' = s.getF r' := by
  simp [State.getF]
@[simp] theorem State.setX_byteAt (s : State) (r : Reg) (v a : Word) : (s.setX r v).byteAt a = s.byteAt a := by
  simp [State.byteAt]

/-- What a read of `x` gives after a write of `x` (10_state.md R22). -/
theorem State.getX_setX (s : State) (r r' : Reg) (v : Word) :
    (s.setX r v).getX r' = if r' = 0#5 then 0#64 else if r' = r then v else s.getX r' := by
  by_cases h0 : r' = 0#5
  · simp [h0]
  by_cases hr : r = 0#5
  · subst hr; simp [h0]
  have hn := Reg.toNat_ne_zero h0
  have hm := Reg.toNat_ne_zero hr
  rw [State.getX_of_ne _ h0]
  simp only [State.setX, hr, dif_neg, not_false_eq_true, h0, if_false]
  by_cases he : r' = r
  · subst he; simp
  · have hne : r.toNat - 1 ≠ r'.toNat - 1 := fun e => he (BitVec.eq_of_toNat_eq (by omega))
    rw [Vector.getElem_set_ne _ _ hne, if_neg he, State.getX_of_ne _ h0]

theorem State.getX_setX_same (s : State) {r : Reg} (h : r ≠ 0#5) (v : Word) : (s.setX r v).getX r = v := by
  simp [State.getX_setX, h]

theorem State.getX_setX_ne (s : State) {r r' : Reg} (h : r' ≠ r) (v : Word) : (s.setX r v).getX r' = s.getX r' := by
  rw [State.getX_setX]; by_cases h0 : r' = 0#5 <;> simp [h0, h]

/-! ### Float register writes -/

@[simp] theorem State.setF_x (s : State) (r : Reg) (v : Word) : (s.setF r v).x = s.x := rfl
@[simp] theorem State.setF_pc (s : State) (r : Reg) (v : Word) : (s.setF r v).pc = s.pc := rfl
@[simp] theorem State.setF_mem (s : State) (r : Reg) (v : Word) : (s.setF r v).mem = s.mem := rfl
@[simp] theorem State.setF_resv (s : State) (r : Reg) (v : Word) : (s.setF r v).resv = s.resv := rfl
@[simp] theorem State.setF_frmDyn (s : State) (r : Reg) (v : Word) : (s.setF r v).frmDyn = s.frmDyn := rfl
@[simp] theorem State.setF_facade (s : State) (r : Reg) (v : Word) : (s.setF r v).facade = s.facade := rfl
@[simp] theorem State.setF_refuses (s : State) (r : Reg) (v : Word) (a : Access) :
    (s.setF r v).refuses a = s.refuses a := rfl
@[simp] theorem State.setF_getX (s : State) (r r' : Reg) (v : Word) : (s.setF r v).getX r' = s.getX r' := rfl
@[simp] theorem State.setF_byteAt (s : State) (r : Reg) (v a : Word) : (s.setF r v).byteAt a = s.byteAt a := rfl

theorem State.getF_setF (s : State) (r r' : Reg) (v : Word) :
    (s.setF r v).getF r' = if r' = r then v else s.getF r' := by
  simp only [State.getF, State.setF]
  by_cases h : r' = r
  · subst h; simp
  · rw [Vector.getElem_set_ne _ _ (fun e => h (BitVec.eq_of_toNat_eq e.symm)), if_neg h]

/-! ### pc -/

@[simp] theorem State.withPc_x (s : State) (t : Word) : (s.withPc t).x = s.x := rfl
@[simp] theorem State.withPc_f (s : State) (t : Word) : (s.withPc t).f = s.f := rfl
@[simp] theorem State.withPc_pc (s : State) (t : Word) : (s.withPc t).pc = t := rfl
@[simp] theorem State.withPc_mem (s : State) (t : Word) : (s.withPc t).mem = s.mem := rfl
@[simp] theorem State.withPc_resv (s : State) (t : Word) : (s.withPc t).resv = s.resv := rfl
@[simp] theorem State.withPc_frmDyn (s : State) (t : Word) : (s.withPc t).frmDyn = s.frmDyn := rfl
@[simp] theorem State.withPc_facade (s : State) (t : Word) : (s.withPc t).facade = s.facade := rfl
@[simp] theorem State.withPc_refuses (s : State) (t : Word) (a : Access) : (s.withPc t).refuses a = s.refuses a := rfl
@[simp] theorem State.withPc_getX (s : State) (t : Word) (r : Reg) : (s.withPc t).getX r = s.getX r := rfl
@[simp] theorem State.withPc_getF (s : State) (t : Word) (r : Reg) : (s.withPc t).getF r = s.getF r := rfl
@[simp] theorem State.withPc_byteAt (s : State) (t a : Word) : (s.withPc t).byteAt a = s.byteAt a := rfl

/-! ### Memory -/

@[simp] theorem State.withMem_x (s : State) (m : Memory) : (s.withMem m).x = s.x := rfl
@[simp] theorem State.withMem_f (s : State) (m : Memory) : (s.withMem m).f = s.f := rfl
@[simp] theorem State.withMem_pc (s : State) (m : Memory) : (s.withMem m).pc = s.pc := rfl
@[simp] theorem State.withMem_mem (s : State) (m : Memory) : (s.withMem m).mem = m := rfl
@[simp] theorem State.withMem_resv (s : State) (m : Memory) : (s.withMem m).resv = s.resv := rfl
@[simp] theorem State.withMem_frmDyn (s : State) (m : Memory) : (s.withMem m).frmDyn = s.frmDyn := rfl
@[simp] theorem State.withMem_facade (s : State) (m : Memory) : (s.withMem m).facade = s.facade := rfl
@[simp] theorem State.withMem_refuses (s : State) (m : Memory) (a : Access) : (s.withMem m).refuses a = s.refuses a := rfl
@[simp] theorem State.withMem_getX (s : State) (m : Memory) (r : Reg) : (s.withMem m).getX r = s.getX r := rfl
@[simp] theorem State.withMem_getF (s : State) (m : Memory) (r : Reg) : (s.withMem m).getF r = s.getF r := rfl
@[simp] theorem State.withMem_byteAt (s : State) (m : Memory) (a : Word) :
    (s.withMem m).byteAt a = Memory.read m a.toNat := rfl

/-! ### The reservation -/

@[simp] theorem State.setResv_x (s : State) (o : Option Word) : (s.setResv o).x = s.x := rfl
@[simp] theorem State.setResv_f (s : State) (o : Option Word) : (s.setResv o).f = s.f := rfl
@[simp] theorem State.setResv_pc (s : State) (o : Option Word) : (s.setResv o).pc = s.pc := rfl
@[simp] theorem State.setResv_mem (s : State) (o : Option Word) : (s.setResv o).mem = s.mem := rfl
@[simp] theorem State.setResv_resv (s : State) (o : Option Word) : (s.setResv o).resv = o := rfl
@[simp] theorem State.setResv_frmDyn (s : State) (o : Option Word) : (s.setResv o).frmDyn = s.frmDyn := rfl
@[simp] theorem State.setResv_facade (s : State) (o : Option Word) : (s.setResv o).facade = s.facade := rfl
@[simp] theorem State.setResv_refuses (s : State) (o : Option Word) (a : Access) :
    (s.setResv o).refuses a = s.refuses a := rfl
@[simp] theorem State.setResv_getX (s : State) (o : Option Word) (r : Reg) : (s.setResv o).getX r = s.getX r := rfl
@[simp] theorem State.setResv_getF (s : State) (o : Option Word) (r : Reg) : (s.setResv o).getF r = s.getF r := rfl
@[simp] theorem State.setResv_byteAt (s : State) (o : Option Word) (a : Word) : (s.setResv o).byteAt a = s.byteAt a := rfl

end Sys2Proof.Machine
end

