-- ==== Sys2Proof/Laws/Memory.lean ====
section
/-! SUPPORT. Laws/Memory.lean: what a read gives after a write; that every memory operation keeps the canonical form. -/
namespace Sys2Proof.Machine

/-! ### Reads -/

theorem Memory.read_filter_ne (m : Memory) {a b : Nat} (h : b ≠ a) :
    Memory.read (m.filter (·.1 != a)) b = Memory.read m b := by
  induction m with
  | nil => rfl
  | cons c m ih =>
    obtain ⟨k, v⟩ := c
    by_cases hk : k = a
    · subst hk
      have : ¬ k = b := fun e => h e.symm
      simp [Memory.read, ih, this]
    · by_cases hb : k = b
      · subst hb; simp [hk, Memory.read]
      · simp [hk, Memory.read, hb, ih]

theorem Memory.read_filter_same (m : Memory) (a : Nat) :
    Memory.read (m.filter (·.1 != a)) a = Config.unlistedByte := by
  induction m with
  | nil => rfl
  | cons c m ih =>
    obtain ⟨k, v⟩ := c
    by_cases hk : k = a
    · simp [hk, ih]
    · simp [hk, Memory.read, ih]

theorem Memory.read_insert (m : Memory) (a b : Nat) (v : Byte) (ha : ∀ c ∈ m, c.1 ≠ a) :
    Memory.read (Memory.insert m a v) b = if b = a then v else Memory.read m b := by
  induction m with
  | nil =>
    by_cases h : b = a
    · simp [Memory.insert, Memory.read, h]
    · simp [Memory.insert, Memory.read, h, Ne.symm h]
  | cons c m ih =>
    obtain ⟨k, u⟩ := c
    have hk : k ≠ a := ha (k, u) (by simp)
    have ih := ih (fun c hc => ha c (List.mem_cons_of_mem _ hc))
    unfold Memory.insert
    by_cases hlt : k < a
    · rw [if_pos hlt]
      by_cases hkb : k = b
      · subst hkb; simp [Memory.read, hk]
      · simp [Memory.read, hkb, ih]
    · rw [if_neg hlt]
      by_cases hba : b = a
      · subst hba; simp [Memory.read]
      · simp [Memory.read, hba, Ne.symm hba]

/-- A read after a write gives the value written at its own address and the old byte elsewhere (20_memory.md R53), for
every list, canonical or not. -/
theorem Memory.read_write (m : Memory) (a b : Nat) (v : Byte) :
    Memory.read (Memory.write m a v) b = if b = a then v else Memory.read m b := by
  unfold Memory.write
  by_cases hv : v = Config.unlistedByte
  · rw [if_pos hv]
    by_cases hb : b = a
    · subst hb; simp [Memory.read_filter_same, hv]
    · simp [hb, Memory.read_filter_ne m hb]
  · rw [if_neg hv, Memory.read_insert _ _ _ _ (by intro c hc; simpa using (List.mem_filter.mp hc).2)]
    by_cases hb : b = a
    · simp [hb]
    · simp [hb, Memory.read_filter_ne m hb]

/-! ### The canonical form -/

theorem Memory.wf_iff (m : Memory) : m.wf = true ↔
    m.Pairwise (fun c d => c.1 < d.1) ∧ ∀ c ∈ m, c.2 ≠ Config.unlistedByte ∧ c.1 < 2 ^ 64 := by
  simp [Memory.wf]

theorem Memory.wf_nil : Memory.wf [] = true := by simp [Memory.wf_iff]

theorem Memory.mem_insert (m : Memory) (a : Nat) (v : Byte) (c : Host.Cell) :
    c ∈ Memory.insert m a v ↔ c = (a, v) ∨ c ∈ m := by
  induction m with
  | nil => simp [Memory.insert]
  | cons d m ih =>
    obtain ⟨k, u⟩ := d
    unfold Memory.insert
    split
    · simp only [List.mem_cons, ih]; tauto
    · simp

theorem Memory.pairwise_insert (m : Memory) (a : Nat) (v : Byte) (hm : m.Pairwise (fun c d => c.1 < d.1))
    (ha : ∀ c ∈ m, c.1 ≠ a) : (Memory.insert m a v).Pairwise (fun c d => c.1 < d.1) := by
  induction m with
  | nil => simp [Memory.insert]
  | cons d m ih =>
    obtain ⟨k, u⟩ := d
    rw [List.pairwise_cons] at hm
    have hk : k ≠ a := ha (k, u) (by simp)
    unfold Memory.insert
    split
    · rename_i hlt
      rw [List.pairwise_cons]
      refine ⟨?_, ih hm.2 fun c hc => ha c (List.mem_cons_of_mem _ hc)⟩
      intro c hc
      rcases (Memory.mem_insert _ _ _ _).mp hc with h | h
      · subst h; exact hlt
      · exact hm.1 c h
    · rename_i hlt
      rw [List.pairwise_cons]
      refine ⟨?_, List.pairwise_cons.mpr hm⟩
      intro c hc
      rcases List.mem_cons.mp hc with h | h
      · subst h; simp; omega
      · have := hm.1 c h; simp at this ⊢; omega

/-- A byte write keeps the canonical form. -/
theorem Memory.wf_write (m : Memory) (a : Nat) (v : Byte) (ha : a < 2 ^ 64) (hm : m.wf = true) :
    (Memory.write m a v).wf = true := by
  rw [Memory.wf_iff] at hm ⊢
  have hf : (m.filter (·.1 != a)).Pairwise (fun c d => c.1 < d.1) := hm.1.filter _
  have hne : ∀ c ∈ m.filter (·.1 != a), c.1 ≠ a := by
    intro c hc; simpa using (List.mem_filter.mp hc).2
  unfold Memory.write
  split
  · exact ⟨hf, fun c hc => hm.2 c (List.mem_filter.mp hc).1⟩
  · rename_i hv
    refine ⟨Memory.pairwise_insert _ _ _ hf hne, ?_⟩
    intro c hc
    rcases (Memory.mem_insert _ _ _ _).mp hc with h | h
    · subst h; exact ⟨hv, ha⟩
    · exact hm.2 c (List.mem_filter.mp h).1

/-- A store keeps the canonical form. -/
theorem storeLE_wf (m : Memory) (a v : Word) (n : Nat) (hm : m.wf = true) : (storeLE m a v n).wf = true := by
  induction n generalizing m a v with
  | zero => exact hm
  | succ n ih => exact ih _ _ _ (Memory.wf_write _ _ _ a.isLt hm)

/-! ### Multi-byte stores -/

/-- A byte outside the `n` bytes stored from `a` on reads as before (20_memory.md R52). -/
theorem read_storeLE_outside (m : Memory) (a v b : Word) (n : Nat) (h : ∀ k < n, b ≠ a + BitVec.ofNat 64 k) :
    Memory.read (storeLE m a v n) b.toNat = Memory.read m b.toNat := by
  induction n generalizing m a v with
  | zero => rfl
  | succ n ih =>
    have h0 : b ≠ a := by simpa using h 0 (by omega)
    rw [storeLE, ih, Memory.read_write, if_neg fun e => h0 (BitVec.eq_of_toNat_eq e)]
    intro k hk e
    refine h (k + 1) (by omega) ?_
    rw [e, BitVec.add_assoc]
    congr 1
    rw [BitVec.ofNat_add, BitVec.add_comm]

/-- A byte of the store, `j` above its start, is byte `j` of the value (20_memory.md R52). -/
theorem read_storeLE_inside (m : Memory) (a v : Word) (n j : Nat) (hn : n ≤ 2 ^ 64) (hj : j < n) :
    Memory.read (storeLE m a v n) (a + BitVec.ofNat 64 j).toNat = (v >>> (8 * j)).setWidth 8 := by
  induction n generalizing m a v j with
  | zero => omega
  | succ n ih =>
    cases j with
    | zero =>
      rw [storeLE]
      have := read_storeLE_outside (Memory.write m a.toNat (v.setWidth 8)) (a + 1#64) (v >>> 8) a n (by
        intro k hk e
        have := congrArg BitVec.toNat e
        simp at this
        have := a.isLt
        omega)
      simp [this, Memory.read_write]
    | succ j =>
      rw [storeLE]
      have := ih (Memory.write m a.toNat (v.setWidth 8)) (a + 1#64) (v >>> 8) j (by omega) (by omega)
      rw [BitVec.add_assoc] at this
      have e : 1#64 + BitVec.ofNat 64 j = BitVec.ofNat 64 (j + 1) := by
        rw [BitVec.ofNat_add, BitVec.add_comm]
      rw [e] at this
      rw [this, ← BitVec.shiftRight_add]
      congr 2; omega

end Sys2Proof.Machine
end

