-- ==== Sys2Proof/Laws/Ops.lean ====
section
/-! SUPPORT. Laws/Ops.lean: everything each shared operation, and each shape, can do when it answers a next state; what
each operation can do when it answers a fault. -/
namespace Sys2Proof.Machine

variable {s t : State}

@[simp] theorem fail_next (k : FailKind) : (fail k = .next t) = False := by simp [fail, raise]
@[simp] theorem raise_next (f : Fault) : (raise f = .next t) = False := by simp [raise]

/-! ### The operations -/

@[simp] theorem readX_next {r : Reg} {k : Word → Result} :
    readX s r k = .next t ↔ s.refuses (.readX r) = false ∧ k (s.getX r) = .next t := by
  unfold readX; split <;> simp_all

@[simp] theorem readF_next {r : Reg} {k : Word → Result} :
    readF s r k = .next t ↔ s.refuses (.readF r) = false ∧ k (s.getF r) = .next t := by
  unfold readF; split <;> simp_all

@[simp] theorem readS_next {r : Reg} {k : Word32 → Result} :
    readS s r k = .next t ↔ s.refuses (.readF r) = false ∧ k (unboxChecked (s.getF r)) = .next t := by
  simp [readS]

@[simp] theorem readPc_next {k : Word → Result} :
    readPc s k = .next t ↔ s.refuses .readPc = false ∧ k s.pc = .next t := by
  unfold readPc; split <;> simp_all

@[simp] theorem writeX_next {r : Reg} {v : Word} {k : State → Result} :
    writeX s r v k = .next t ↔ ServesX s r ∧ k (s.setX r v) = .next t := by
  unfold writeX ServesX
  by_cases h : r = 0#5 <;> cases h' : s.refuses (.writeX r) <;> simp_all

@[simp] theorem writeF_next {r : Reg} {v : Word} {k : State → Result} :
    writeF s r v k = .next t ↔ s.refuses (.writeF r) = false ∧ k (s.setF r v) = .next t := by
  unfold writeF; split <;> simp_all

@[simp] theorem writeS_next {r : Reg} {v : Word32} {k : State → Result} :
    writeS s r v k = .next t ↔ s.refuses (.writeF r) = false ∧ k (s.setF r (nanBox v)) = .next t := by
  simp [writeS]

@[simp] theorem setPc_next {v : Word} :
    setPc s v = .next t ↔ s.refuses .writePc = false ∧ s.withPc v = t := by
  unfold setPc; split <;> simp_all

@[simp] theorem advance_next {w : Word} :
    advance s w = .next t ↔ s.refuses .writePc = false ∧ s.withPc (s.pc + w) = t := by
  simp [advance]

@[simp] theorem hint_next :
    hint s = .next t ↔ s.refuses .writePc = false ∧ s.withPc (s.pc + 2) = t := by
  simp [hint]

@[simp] theorem memRead_next {a : Word} {n : Nat} {k : Word → Result} :
    memRead s a n k = .next t ↔ s.refuses (.readMem n a) = false ∧ k (loadLE s.mem a n) = .next t := by
  unfold memRead; split <;> simp_all

@[simp] theorem memWrite_next {a : Word} {n : Nat} {v : Word} {k : State → Result} :
    memWrite s a n v k = .next t ↔
      s.refuses (.writeMem n a) = false ∧ k (s.withMem (storeLE s.mem a v n)) = .next t := by
  unfold memWrite; split <;> simp_all

@[simp] theorem requireAligned_next {a : Word} {n : Nat} {k : Result} :
    requireAligned a n k = .next t ↔ a.toNat % n = 0 ∧ k = .next t := by
  unfold requireAligned; split <;> simp_all

@[simp] theorem withRm_next {c : BitVec 3} {k : RoundingMode → Result} :
    withRm s c k = .next t ↔ ∃ m, resolveRm s.frmDyn c = some m ∧ k m = .next t := by
  unfold withRm; split <;> simp_all

/-! ### The premises are not changed by updates -/

@[simp] theorem ServesX_setResv (o : Option Word) (r : Reg) : ServesX (s.setResv o) r ↔ ServesX s r := Iff.rfl
@[simp] theorem ServesX_withMem (m : Memory) (r : Reg) : ServesX (s.withMem m) r ↔ ServesX s r := Iff.rfl

/-! ### The shapes -/

theorem aluX0_next {w : Word} {rd : Reg} {v : Word} :
    aluX0 w rd v s = .next t ↔
      ServesX s rd ∧ s.refuses .writePc = false ∧ (s.setX rd v).withPc (s.pc + w) = t := by
  simp [aluX0]

theorem aluX1_next {w : Word} {rd rs1 : Reg} {g : Word → Word} :
    aluX1 w rd rs1 g s = .next t ↔
      s.refuses (.readX rs1) = false ∧ ServesX s rd ∧ s.refuses .writePc = false ∧
        (s.setX rd (g (s.getX rs1))).withPc (s.pc + w) = t := by
  simp [aluX1]

theorem aluX2_next {w : Word} {rd rs1 rs2 : Reg} {g : Word → Word → Word} :
    aluX2 w rd rs1 rs2 g s = .next t ↔
      s.refuses (.readX rs1) = false ∧ s.refuses (.readX rs2) = false ∧ ServesX s rd ∧
        s.refuses .writePc = false ∧ (s.setX rd (g (s.getX rs1) (s.getX rs2))).withPc (s.pc + w) = t := by
  simp [aluX2]

theorem pcRel_next {w : Word} {rd : Reg} {v : Word} :
    pcRel w rd v s = .next t ↔
      s.refuses .readPc = false ∧ ServesX s rd ∧ s.refuses .writePc = false ∧
        (s.setX rd (s.pc + v)).withPc (s.pc + w) = t := by
  simp [pcRel]

theorem jump_next {w : Word} {rd : Reg} {off : Word} :
    jump w rd off s = .next t ↔
      s.refuses .readPc = false ∧ ServesX s rd ∧ s.refuses .writePc = false ∧
        (s.setX rd (s.pc + w)).withPc (s.pc + off) = t := by
  simp [jump]

theorem jumpReg_next {w : Word} {rd rs1 : Reg} {off : Word} :
    jumpReg w rd rs1 off s = .next t ↔
      s.refuses .readPc = false ∧ s.refuses (.readX rs1) = false ∧ ServesX s rd ∧
        s.refuses .writePc = false ∧ (s.setX rd (s.pc + w)).withPc (jalrTarget (s.getX rs1) off) = t := by
  simp [jumpReg]

theorem branch_next {w : Word} {rs1 rs2 : Reg} {off : Word} {c : Word → Word → Bool} :
    branch w rs1 rs2 off c s = .next t ↔
      s.refuses (.readX rs1) = false ∧ s.refuses (.readX rs2) = false ∧ s.refuses .readPc = false ∧
        s.refuses .writePc = false ∧
        s.withPc (if c (s.getX rs1) (s.getX rs2) then s.pc + off else s.pc + w) = t := by
  simp [branch]

theorem loadX_next {w : Word} {rd rs1 : Reg} {imm : Word32} {n : Nat} {ext : Word → Word} :
    loadX w rd rs1 imm n ext s = .next t ↔
      s.refuses (.readX rs1) = false ∧ s.refuses (.readMem n (effAddr (s.getX rs1) imm)) = false ∧ ServesX s rd ∧
        s.refuses .writePc = false ∧
        (s.setX rd (ext (loadLE s.mem (effAddr (s.getX rs1) imm) n))).withPc (s.pc + w) = t := by
  simp [loadX]

theorem storeX_next {w : Word} {rs1 rs2 : Reg} {imm : Word32} {n : Nat} :
    storeX w rs1 rs2 imm n s = .next t ↔
      s.refuses (.readX rs1) = false ∧ s.refuses (.readX rs2) = false ∧
        s.refuses (.writeMem n (effAddr (s.getX rs1) imm)) = false ∧ s.refuses .writePc = false ∧
        (s.withMem (storeLE s.mem (effAddr (s.getX rs1) imm) (s.getX rs2) n)).withPc (s.pc + w) = t := by
  simp [storeX]

theorem loadReserved_next {m n : Nat} {rd rs1 : Reg} :
    loadReserved m n rd rs1 s = .next t ↔
      s.refuses (.readX rs1) = false ∧ (s.getX rs1).toNat % n = 0 ∧
        s.refuses (.readMem n (s.getX rs1)) = false ∧ ServesX s rd ∧ s.refuses .writePc = false ∧
        ((s.setResv (some (s.getX rs1))).setX rd (sext64 ((loadLE s.mem (s.getX rs1) n).setWidth m))).withPc
          (s.pc + 4) = t := by
  simp [loadReserved]

theorem storeConditional_next {n : Nat} {rd rs1 rs2 : Reg} :
    storeConditional n rd rs1 rs2 s = .next t ↔
      s.refuses (.readX rs1) = false ∧ s.refuses (.readX rs2) = false ∧ (s.getX rs1).toNat % n = 0 ∧
        ServesX s rd ∧ s.refuses .writePc = false ∧
        if s.resv = some (s.getX rs1) then
          s.refuses (.writeMem n (s.getX rs1)) = false ∧
            (((s.withMem (storeLE s.mem (s.getX rs1) (s.getX rs2) n)).setResv none).setX rd 0).withPc (s.pc + 4) = t
        else ((s.setResv none).setX rd 1).withPc (s.pc + 4) = t := by
  by_cases h : s.resv = some (s.getX rs1) <;> simp [storeConditional, h]
  tauto

theorem amo_next {m n : Nat} {g : BitVec m → BitVec m → BitVec m} {rd rs1 rs2 : Reg} :
    amo m n g rd rs1 rs2 s = .next t ↔
      s.refuses (.readX rs1) = false ∧ s.refuses (.readX rs2) = false ∧ (s.getX rs1).toNat % n = 0 ∧
        s.refuses (.readMem n (s.getX rs1)) = false ∧ s.refuses (.writeMem n (s.getX rs1)) = false ∧ ServesX s rd ∧
        s.refuses .writePc = false ∧
        ((s.withMem (storeLE s.mem (s.getX rs1)
            (zext64 (g ((loadLE s.mem (s.getX rs1) n).setWidth m) ((s.getX rs2).setWidth m))) n)).setX rd
          (sext64 ((loadLE s.mem (s.getX rs1) n).setWidth m))).withPc (s.pc + 4) = t := by
  simp [amo]

theorem fpu1_next {rd rs1 : Reg} {g : Word32 → Word32} :
    fpu1 rd rs1 g s = .next t ↔
      s.refuses (.readF rs1) = false ∧ s.refuses (.writeF rd) = false ∧ s.refuses .writePc = false ∧
        (s.setF rd (nanBox (g (unboxChecked (s.getF rs1))))).withPc (s.pc + 4) = t := by
  simp [fpu1]

theorem fpu2_next {rd rs1 rs2 : Reg} {g : Word32 → Word32 → Word32} :
    fpu2 rd rs1 rs2 g s = .next t ↔
      s.refuses (.readF rs1) = false ∧ s.refuses (.readF rs2) = false ∧ s.refuses (.writeF rd) = false ∧
        s.refuses .writePc = false ∧
        (s.setF rd (nanBox (g (unboxChecked (s.getF rs1)) (unboxChecked (s.getF rs2))))).withPc (s.pc + 4) = t := by
  simp [fpu2]

theorem fpu3_next {rd rs1 rs2 rs3 : Reg} {g : Word32 → Word32 → Word32 → Word32} :
    fpu3 rd rs1 rs2 rs3 g s = .next t ↔
      s.refuses (.readF rs1) = false ∧ s.refuses (.readF rs2) = false ∧ s.refuses (.readF rs3) = false ∧
        s.refuses (.writeF rd) = false ∧ s.refuses .writePc = false ∧
        (s.setF rd (nanBox (g (unboxChecked (s.getF rs1)) (unboxChecked (s.getF rs2))
          (unboxChecked (s.getF rs3))))).withPc (s.pc + 4) = t := by
  simp [fpu3]

theorem fpuX1_next {rd rs1 : Reg} {g : Word32 → Word} :
    fpuX1 rd rs1 g s = .next t ↔
      s.refuses (.readF rs1) = false ∧ ServesX s rd ∧ s.refuses .writePc = false ∧
        (s.setX rd (g (unboxChecked (s.getF rs1)))).withPc (s.pc + 4) = t := by
  simp [fpuX1]

theorem fpuX2_next {rd rs1 rs2 : Reg} {g : Word32 → Word32 → Word} :
    fpuX2 rd rs1 rs2 g s = .next t ↔
      s.refuses (.readF rs1) = false ∧ s.refuses (.readF rs2) = false ∧ ServesX s rd ∧ s.refuses .writePc = false ∧
        (s.setX rd (g (unboxChecked (s.getF rs1)) (unboxChecked (s.getF rs2)))).withPc (s.pc + 4) = t := by
  simp [fpuX2]

theorem fpuOfX_next {rd rs1 : Reg} {g : Word → Word32} :
    fpuOfX rd rs1 g s = .next t ↔
      s.refuses (.readX rs1) = false ∧ s.refuses (.writeF rd) = false ∧ s.refuses .writePc = false ∧
        (s.setF rd (nanBox (g (s.getX rs1)))).withPc (s.pc + 4) = t := by
  simp [fpuOfX]

/-! ### When an operation ends other than OK

The dual of the `_next` lemmas: the one kind an operation raises itself and its cause, or what comes next ends so. -/

variable {f : Fault}

theorem fail_fault (e : FailKind) : (fail e = .fault f) ↔ f = .executionFailure e := by simp [fail, raise, eq_comm]

theorem raise_fault (g : Fault) : (raise g = .fault f) ↔ f = g := by simp [raise, eq_comm]

theorem readX_fault {r : Reg} {k : Word → Result} :
    readX s r k = .fault f ↔ s.refuses (.readX r) = true ∧ f = .executionFailure .regRead ∨
      s.refuses (.readX r) = false ∧ k (s.getX r) = .fault f := by
  unfold readX; split <;> simp_all [fail_fault]

theorem readF_fault {r : Reg} {k : Word → Result} :
    readF s r k = .fault f ↔ s.refuses (.readF r) = true ∧ f = .executionFailure .regRead ∨
      s.refuses (.readF r) = false ∧ k (s.getF r) = .fault f := by
  unfold readF; split <;> simp_all [fail_fault]

theorem readS_fault {r : Reg} {k : Word32 → Result} :
    readS s r k = .fault f ↔ s.refuses (.readF r) = true ∧ f = .executionFailure .regRead ∨
      s.refuses (.readF r) = false ∧ k (unboxChecked (s.getF r)) = .fault f := readF_fault

theorem readPc_fault {k : Word → Result} :
    readPc s k = .fault f ↔ s.refuses .readPc = true ∧ f = .executionFailure .regRead ∨
      s.refuses .readPc = false ∧ k s.pc = .fault f := by
  unfold readPc; split <;> simp_all [fail_fault]

theorem writeX_fault {r : Reg} {v : Word} {k : State → Result} :
    writeX s r v k = .fault f ↔ (r ≠ 0#5 ∧ s.refuses (.writeX r) = true) ∧ f = .executionFailure .regWrite ∨
      ServesX s r ∧ k (s.setX r v) = .fault f := by
  unfold writeX ServesX
  by_cases h : r = 0#5 <;> cases h' : s.refuses (.writeX r) <;> simp_all [fail_fault]

theorem writeF_fault {r : Reg} {v : Word} {k : State → Result} :
    writeF s r v k = .fault f ↔ s.refuses (.writeF r) = true ∧ f = .executionFailure .regWrite ∨
      s.refuses (.writeF r) = false ∧ k (s.setF r v) = .fault f := by
  unfold writeF; split <;> simp_all [fail_fault]

theorem writeS_fault {r : Reg} {v : Word32} {k : State → Result} :
    writeS s r v k = .fault f ↔ s.refuses (.writeF r) = true ∧ f = .executionFailure .regWrite ∨
      s.refuses (.writeF r) = false ∧ k (s.setF r (nanBox v)) = .fault f := writeF_fault

theorem setPc_fault {v : Word} :
    setPc s v = .fault f ↔ s.refuses .writePc = true ∧ f = .executionFailure .pcWrite := by
  unfold setPc; split <;> simp_all [fail_fault]

theorem advance_fault {w : Word} :
    advance s w = .fault f ↔ s.refuses .writePc = true ∧ f = .executionFailure .pcWrite := setPc_fault

theorem hint_fault :
    hint s = .fault f ↔ s.refuses .writePc = true ∧ f = .executionFailure .pcWrite := setPc_fault

theorem memRead_fault {a : Word} {n : Nat} {k : Word → Result} :
    memRead s a n k = .fault f ↔ s.refuses (.readMem n a) = true ∧ f = .executionFailure .memRead ∨
      s.refuses (.readMem n a) = false ∧ k (loadLE s.mem a n) = .fault f := by
  unfold memRead; split <;> simp_all [fail_fault]

theorem memWrite_fault {a : Word} {n : Nat} {v : Word} {k : State → Result} :
    memWrite s a n v k = .fault f ↔ s.refuses (.writeMem n a) = true ∧ f = .executionFailure .memWrite ∨
      s.refuses (.writeMem n a) = false ∧ k (s.withMem (storeLE s.mem a v n)) = .fault f := by
  unfold memWrite; split <;> simp_all [fail_fault]

theorem requireAligned_fault {a : Word} {n : Nat} {k : Result} :
    requireAligned a n k = .fault f ↔ a.toNat % n ≠ 0 ∧ f = .executionFailure .misalignedAtomic ∨
      a.toNat % n = 0 ∧ k = .fault f := by
  unfold requireAligned; split <;> simp_all [fail_fault]

theorem withRm_fault {c : BitVec 3} {k : RoundingMode → Result} :
    withRm s c k = .fault f ↔ resolveRm s.frmDyn c = none ∧ f = .executionFailure .invalidRoundingMode ∨
      ∃ m, resolveRm s.frmDyn c = some m ∧ k m = .fault f := by
  unfold withRm; split <;> simp_all [fail_fault]

end Sys2Proof.Machine
end

