-- ==== Sys2Proof/Laws/PerInstr.lean ====
section
/-! SUPPORT. Laws/PerInstr.lean: the family Reads: an instruction's word matches the instruction's own table entry, and that
entry's decode function gives the instruction back. -/
set_option Elab.async false
namespace Sys2Proof.Laws.Reads

/-- The word of `i` matches entry `i.index` of the pattern table, whose decode function reads `i` from it
(30_encoding.md R101, R104, R109). -/
def Statement (i : Instr) : Prop :=
  ∃ e, patternTable[i.index]? = some e ∧ e.hits (encode i) = true ∧ e.build (encode i) = i

theorem hits_of {e : Entry} {w v : Word32} (h : w &&& e.mask = v) (hv : v = e.eigen) : e.hits w = true := by
  simp [Entry.hits, h, hv]

theorem lui (rd : Reg) (imm : BitVec 20) : Statement (.lui rd imm) :=
  ⟨_, rfl, hits_of (encU_mask7F ..) (by decide),
    by simp only [encode, fRd_encU, fImmU_encU]⟩

theorem auipc (rd : Reg) (imm : BitVec 20) : Statement (.auipc rd imm) :=
  ⟨_, rfl, hits_of (encU_mask7F ..) (by decide),
    by simp only [encode, fRd_encU, fImmU_encU]⟩

theorem jal (rd : Reg) (off : BitVec 20) : Statement (.jal rd off) :=
  ⟨_, rfl, hits_of (encJ_mask7F ..) (by decide),
    by simp only [encode, fRd_encJ, fImmJ_encJ]⟩

theorem jalr (rd : Reg) (rs1 : Reg) (imm : BitVec 12) : Statement (.jalr rd rs1 imm) :=
  ⟨_, rfl, hits_of (encI_mask707F ..) (by decide),
    by simp only [encode, fRd_encI, fRs1_encI, fImmI_encI]⟩

theorem beq (rs1 : Reg) (rs2 : Reg) (off : BitVec 12) : Statement (.beq rs1 rs2 off) :=
  ⟨_, rfl, hits_of (encB_mask707F ..) (by decide),
    by simp only [encode, fRs1_encB, fRs2_encB, fImmB_encB]⟩

theorem bne (rs1 : Reg) (rs2 : Reg) (off : BitVec 12) : Statement (.bne rs1 rs2 off) :=
  ⟨_, rfl, hits_of (encB_mask707F ..) (by decide),
    by simp only [encode, fRs1_encB, fRs2_encB, fImmB_encB]⟩

theorem blt (rs1 : Reg) (rs2 : Reg) (off : BitVec 12) : Statement (.blt rs1 rs2 off) :=
  ⟨_, rfl, hits_of (encB_mask707F ..) (by decide),
    by simp only [encode, fRs1_encB, fRs2_encB, fImmB_encB]⟩

theorem bge (rs1 : Reg) (rs2 : Reg) (off : BitVec 12) : Statement (.bge rs1 rs2 off) :=
  ⟨_, rfl, hits_of (encB_mask707F ..) (by decide),
    by simp only [encode, fRs1_encB, fRs2_encB, fImmB_encB]⟩

theorem bltu (rs1 : Reg) (rs2 : Reg) (off : BitVec 12) : Statement (.bltu rs1 rs2 off) :=
  ⟨_, rfl, hits_of (encB_mask707F ..) (by decide),
    by simp only [encode, fRs1_encB, fRs2_encB, fImmB_encB]⟩

theorem bgeu (rs1 : Reg) (rs2 : Reg) (off : BitVec 12) : Statement (.bgeu rs1 rs2 off) :=
  ⟨_, rfl, hits_of (encB_mask707F ..) (by decide),
    by simp only [encode, fRs1_encB, fRs2_encB, fImmB_encB]⟩

theorem lb (rd : Reg) (rs1 : Reg) (imm : BitVec 12) : Statement (.lb rd rs1 imm) :=
  ⟨_, rfl, hits_of (encI_mask707F ..) (by decide),
    by simp only [encode, fRd_encI, fRs1_encI, fImmI_encI]⟩

theorem lh (rd : Reg) (rs1 : Reg) (imm : BitVec 12) : Statement (.lh rd rs1 imm) :=
  ⟨_, rfl, hits_of (encI_mask707F ..) (by decide),
    by simp only [encode, fRd_encI, fRs1_encI, fImmI_encI]⟩

theorem lw (rd : Reg) (rs1 : Reg) (imm : BitVec 12) : Statement (.lw rd rs1 imm) :=
  ⟨_, rfl, hits_of (encI_mask707F ..) (by decide),
    by simp only [encode, fRd_encI, fRs1_encI, fImmI_encI]⟩

theorem ld (rd : Reg) (rs1 : Reg) (imm : BitVec 12) : Statement (.ld rd rs1 imm) :=
  ⟨_, rfl, hits_of (encI_mask707F ..) (by decide),
    by simp only [encode, fRd_encI, fRs1_encI, fImmI_encI]⟩

theorem lbu (rd : Reg) (rs1 : Reg) (imm : BitVec 12) : Statement (.lbu rd rs1 imm) :=
  ⟨_, rfl, hits_of (encI_mask707F ..) (by decide),
    by simp only [encode, fRd_encI, fRs1_encI, fImmI_encI]⟩

theorem lhu (rd : Reg) (rs1 : Reg) (imm : BitVec 12) : Statement (.lhu rd rs1 imm) :=
  ⟨_, rfl, hits_of (encI_mask707F ..) (by decide),
    by simp only [encode, fRd_encI, fRs1_encI, fImmI_encI]⟩

theorem lwu (rd : Reg) (rs1 : Reg) (imm : BitVec 12) : Statement (.lwu rd rs1 imm) :=
  ⟨_, rfl, hits_of (encI_mask707F ..) (by decide),
    by simp only [encode, fRd_encI, fRs1_encI, fImmI_encI]⟩

theorem sb (rs1 : Reg) (rs2 : Reg) (imm : BitVec 12) : Statement (.sb rs1 rs2 imm) :=
  ⟨_, rfl, hits_of (encS_mask707F ..) (by decide),
    by simp only [encode, fRs1_encS, fRs2_encS, fImmS_encS]⟩

theorem sh (rs1 : Reg) (rs2 : Reg) (imm : BitVec 12) : Statement (.sh rs1 rs2 imm) :=
  ⟨_, rfl, hits_of (encS_mask707F ..) (by decide),
    by simp only [encode, fRs1_encS, fRs2_encS, fImmS_encS]⟩

theorem sw (rs1 : Reg) (rs2 : Reg) (imm : BitVec 12) : Statement (.sw rs1 rs2 imm) :=
  ⟨_, rfl, hits_of (encS_mask707F ..) (by decide),
    by simp only [encode, fRs1_encS, fRs2_encS, fImmS_encS]⟩

theorem sd (rs1 : Reg) (rs2 : Reg) (imm : BitVec 12) : Statement (.sd rs1 rs2 imm) :=
  ⟨_, rfl, hits_of (encS_mask707F ..) (by decide),
    by simp only [encode, fRs1_encS, fRs2_encS, fImmS_encS]⟩

theorem addi (rd : Reg) (rs1 : Reg) (imm : BitVec 12) : Statement (.addi rd rs1 imm) :=
  ⟨_, rfl, hits_of (encI_mask707F ..) (by decide),
    by simp only [encode, fRd_encI, fRs1_encI, fImmI_encI]⟩

theorem slti (rd : Reg) (rs1 : Reg) (imm : BitVec 12) : Statement (.slti rd rs1 imm) :=
  ⟨_, rfl, hits_of (encI_mask707F ..) (by decide),
    by simp only [encode, fRd_encI, fRs1_encI, fImmI_encI]⟩

theorem sltiu (rd : Reg) (rs1 : Reg) (imm : BitVec 12) : Statement (.sltiu rd rs1 imm) :=
  ⟨_, rfl, hits_of (encI_mask707F ..) (by decide),
    by simp only [encode, fRd_encI, fRs1_encI, fImmI_encI]⟩

theorem xori (rd : Reg) (rs1 : Reg) (imm : BitVec 12) : Statement (.xori rd rs1 imm) :=
  ⟨_, rfl, hits_of (encI_mask707F ..) (by decide),
    by simp only [encode, fRd_encI, fRs1_encI, fImmI_encI]⟩

theorem ori (rd : Reg) (rs1 : Reg) (imm : BitVec 12) : Statement (.ori rd rs1 imm) :=
  ⟨_, rfl, hits_of (encI_mask707F ..) (by decide),
    by simp only [encode, fRd_encI, fRs1_encI, fImmI_encI]⟩

theorem andi (rd : Reg) (rs1 : Reg) (imm : BitVec 12) : Statement (.andi rd rs1 imm) :=
  ⟨_, rfl, hits_of (encI_mask707F ..) (by decide),
    by simp only [encode, fRd_encI, fRs1_encI, fImmI_encI]⟩

theorem slli (rd : Reg) (rs1 : Reg) (shamt : BitVec 6) : Statement (.slli rd rs1 shamt) :=
  ⟨_, rfl, hits_of (encSh6_maskFC00707F ..) (by decide),
    by simp only [encode, fRd_encSh6, fRs1_encSh6, fShamt6_encSh6]⟩

theorem srli (rd : Reg) (rs1 : Reg) (shamt : BitVec 6) : Statement (.srli rd rs1 shamt) :=
  ⟨_, rfl, hits_of (encSh6_maskFC00707F ..) (by decide),
    by simp only [encode, fRd_encSh6, fRs1_encSh6, fShamt6_encSh6]⟩

theorem srai (rd : Reg) (rs1 : Reg) (shamt : BitVec 6) : Statement (.srai rd rs1 shamt) :=
  ⟨_, rfl, hits_of (encSh6_maskFC00707F ..) (by decide),
    by simp only [encode, fRd_encSh6, fRs1_encSh6, fShamt6_encSh6]⟩

theorem add (rd : Reg) (rs1 : Reg) (rs2 : Reg) : Statement (.add rd rs1 rs2) :=
  ⟨_, rfl, hits_of (encR_maskFE00707F ..) (by decide),
    by simp only [encode, fRd_encR, fRs1_encR, fRs2_encR]⟩

theorem sub (rd : Reg) (rs1 : Reg) (rs2 : Reg) : Statement (.sub rd rs1 rs2) :=
  ⟨_, rfl, hits_of (encR_maskFE00707F ..) (by decide),
    by simp only [encode, fRd_encR, fRs1_encR, fRs2_encR]⟩

theorem sll (rd : Reg) (rs1 : Reg) (rs2 : Reg) : Statement (.sll rd rs1 rs2) :=
  ⟨_, rfl, hits_of (encR_maskFE00707F ..) (by decide),
    by simp only [encode, fRd_encR, fRs1_encR, fRs2_encR]⟩

theorem slt (rd : Reg) (rs1 : Reg) (rs2 : Reg) : Statement (.slt rd rs1 rs2) :=
  ⟨_, rfl, hits_of (encR_maskFE00707F ..) (by decide),
    by simp only [encode, fRd_encR, fRs1_encR, fRs2_encR]⟩

theorem sltu (rd : Reg) (rs1 : Reg) (rs2 : Reg) : Statement (.sltu rd rs1 rs2) :=
  ⟨_, rfl, hits_of (encR_maskFE00707F ..) (by decide),
    by simp only [encode, fRd_encR, fRs1_encR, fRs2_encR]⟩

theorem xor (rd : Reg) (rs1 : Reg) (rs2 : Reg) : Statement (.xor rd rs1 rs2) :=
  ⟨_, rfl, hits_of (encR_maskFE00707F ..) (by decide),
    by simp only [encode, fRd_encR, fRs1_encR, fRs2_encR]⟩

theorem srl (rd : Reg) (rs1 : Reg) (rs2 : Reg) : Statement (.srl rd rs1 rs2) :=
  ⟨_, rfl, hits_of (encR_maskFE00707F ..) (by decide),
    by simp only [encode, fRd_encR, fRs1_encR, fRs2_encR]⟩

theorem sra (rd : Reg) (rs1 : Reg) (rs2 : Reg) : Statement (.sra rd rs1 rs2) :=
  ⟨_, rfl, hits_of (encR_maskFE00707F ..) (by decide),
    by simp only [encode, fRd_encR, fRs1_encR, fRs2_encR]⟩

theorem or (rd : Reg) (rs1 : Reg) (rs2 : Reg) : Statement (.or rd rs1 rs2) :=
  ⟨_, rfl, hits_of (encR_maskFE00707F ..) (by decide),
    by simp only [encode, fRd_encR, fRs1_encR, fRs2_encR]⟩

theorem and (rd : Reg) (rs1 : Reg) (rs2 : Reg) : Statement (.and rd rs1 rs2) :=
  ⟨_, rfl, hits_of (encR_maskFE00707F ..) (by decide),
    by simp only [encode, fRd_encR, fRs1_encR, fRs2_encR]⟩

theorem addiw (rd : Reg) (rs1 : Reg) (imm : BitVec 12) : Statement (.addiw rd rs1 imm) :=
  ⟨_, rfl, hits_of (encI_mask707F ..) (by decide),
    by simp only [encode, fRd_encI, fRs1_encI, fImmI_encI]⟩

theorem slliw (rd : Reg) (rs1 : Reg) (shamt : BitVec 5) : Statement (.slliw rd rs1 shamt) :=
  ⟨_, rfl, hits_of (encR_maskFE00707F ..) (by decide),
    by simp only [encode, fRd_encR, fRs1_encR, fShamt5_encR]⟩

theorem srliw (rd : Reg) (rs1 : Reg) (shamt : BitVec 5) : Statement (.srliw rd rs1 shamt) :=
  ⟨_, rfl, hits_of (encR_maskFE00707F ..) (by decide),
    by simp only [encode, fRd_encR, fRs1_encR, fShamt5_encR]⟩

theorem sraiw (rd : Reg) (rs1 : Reg) (shamt : BitVec 5) : Statement (.sraiw rd rs1 shamt) :=
  ⟨_, rfl, hits_of (encR_maskFE00707F ..) (by decide),
    by simp only [encode, fRd_encR, fRs1_encR, fShamt5_encR]⟩

theorem addw (rd : Reg) (rs1 : Reg) (rs2 : Reg) : Statement (.addw rd rs1 rs2) :=
  ⟨_, rfl, hits_of (encR_maskFE00707F ..) (by decide),
    by simp only [encode, fRd_encR, fRs1_encR, fRs2_encR]⟩

theorem subw (rd : Reg) (rs1 : Reg) (rs2 : Reg) : Statement (.subw rd rs1 rs2) :=
  ⟨_, rfl, hits_of (encR_maskFE00707F ..) (by decide),
    by simp only [encode, fRd_encR, fRs1_encR, fRs2_encR]⟩

theorem sllw (rd : Reg) (rs1 : Reg) (rs2 : Reg) : Statement (.sllw rd rs1 rs2) :=
  ⟨_, rfl, hits_of (encR_maskFE00707F ..) (by decide),
    by simp only [encode, fRd_encR, fRs1_encR, fRs2_encR]⟩

theorem srlw (rd : Reg) (rs1 : Reg) (rs2 : Reg) : Statement (.srlw rd rs1 rs2) :=
  ⟨_, rfl, hits_of (encR_maskFE00707F ..) (by decide),
    by simp only [encode, fRd_encR, fRs1_encR, fRs2_encR]⟩

theorem sraw (rd : Reg) (rs1 : Reg) (rs2 : Reg) : Statement (.sraw rd rs1 rs2) :=
  ⟨_, rfl, hits_of (encR_maskFE00707F ..) (by decide),
    by simp only [encode, fRd_encR, fRs1_encR, fRs2_encR]⟩

theorem ebreak : Statement (.ebreak) :=
  ⟨_, rfl, by decide, rfl⟩

theorem mul (rd : Reg) (rs1 : Reg) (rs2 : Reg) : Statement (.mul rd rs1 rs2) :=
  ⟨_, rfl, hits_of (encR_maskFE00707F ..) (by decide),
    by simp only [encode, fRd_encR, fRs1_encR, fRs2_encR]⟩

theorem mulh (rd : Reg) (rs1 : Reg) (rs2 : Reg) : Statement (.mulh rd rs1 rs2) :=
  ⟨_, rfl, hits_of (encR_maskFE00707F ..) (by decide),
    by simp only [encode, fRd_encR, fRs1_encR, fRs2_encR]⟩

theorem mulhsu (rd : Reg) (rs1 : Reg) (rs2 : Reg) : Statement (.mulhsu rd rs1 rs2) :=
  ⟨_, rfl, hits_of (encR_maskFE00707F ..) (by decide),
    by simp only [encode, fRd_encR, fRs1_encR, fRs2_encR]⟩

theorem mulhu (rd : Reg) (rs1 : Reg) (rs2 : Reg) : Statement (.mulhu rd rs1 rs2) :=
  ⟨_, rfl, hits_of (encR_maskFE00707F ..) (by decide),
    by simp only [encode, fRd_encR, fRs1_encR, fRs2_encR]⟩

theorem div (rd : Reg) (rs1 : Reg) (rs2 : Reg) : Statement (.div rd rs1 rs2) :=
  ⟨_, rfl, hits_of (encR_maskFE00707F ..) (by decide),
    by simp only [encode, fRd_encR, fRs1_encR, fRs2_encR]⟩

theorem divu (rd : Reg) (rs1 : Reg) (rs2 : Reg) : Statement (.divu rd rs1 rs2) :=
  ⟨_, rfl, hits_of (encR_maskFE00707F ..) (by decide),
    by simp only [encode, fRd_encR, fRs1_encR, fRs2_encR]⟩

theorem rem (rd : Reg) (rs1 : Reg) (rs2 : Reg) : Statement (.rem rd rs1 rs2) :=
  ⟨_, rfl, hits_of (encR_maskFE00707F ..) (by decide),
    by simp only [encode, fRd_encR, fRs1_encR, fRs2_encR]⟩

theorem remu (rd : Reg) (rs1 : Reg) (rs2 : Reg) : Statement (.remu rd rs1 rs2) :=
  ⟨_, rfl, hits_of (encR_maskFE00707F ..) (by decide),
    by simp only [encode, fRd_encR, fRs1_encR, fRs2_encR]⟩

theorem mulw (rd : Reg) (rs1 : Reg) (rs2 : Reg) : Statement (.mulw rd rs1 rs2) :=
  ⟨_, rfl, hits_of (encR_maskFE00707F ..) (by decide),
    by simp only [encode, fRd_encR, fRs1_encR, fRs2_encR]⟩

theorem divw (rd : Reg) (rs1 : Reg) (rs2 : Reg) : Statement (.divw rd rs1 rs2) :=
  ⟨_, rfl, hits_of (encR_maskFE00707F ..) (by decide),
    by simp only [encode, fRd_encR, fRs1_encR, fRs2_encR]⟩

theorem divuw (rd : Reg) (rs1 : Reg) (rs2 : Reg) : Statement (.divuw rd rs1 rs2) :=
  ⟨_, rfl, hits_of (encR_maskFE00707F ..) (by decide),
    by simp only [encode, fRd_encR, fRs1_encR, fRs2_encR]⟩

theorem remw (rd : Reg) (rs1 : Reg) (rs2 : Reg) : Statement (.remw rd rs1 rs2) :=
  ⟨_, rfl, hits_of (encR_maskFE00707F ..) (by decide),
    by simp only [encode, fRd_encR, fRs1_encR, fRs2_encR]⟩

theorem remuw (rd : Reg) (rs1 : Reg) (rs2 : Reg) : Statement (.remuw rd rs1 rs2) :=
  ⟨_, rfl, hits_of (encR_maskFE00707F ..) (by decide),
    by simp only [encode, fRd_encR, fRs1_encR, fRs2_encR]⟩

theorem lrW (rd : Reg) (rs1 : Reg) (aqrl : BitVec 2) : Statement (.lrW rd rs1 aqrl) :=
  ⟨_, rfl, hits_of (encA_maskF9F0707F ..) (by decide),
    by simp only [encode, fRd_encA, fRs1_encA, fAqRl_encA]⟩

theorem scW (rd : Reg) (rs1 : Reg) (rs2 : Reg) (aqrl : BitVec 2) : Statement (.scW rd rs1 rs2 aqrl) :=
  ⟨_, rfl, hits_of (encA_maskF800707F ..) (by decide),
    by simp only [encode, fRd_encA, fRs1_encA, fRs2_encA, fAqRl_encA]⟩

theorem amoswapW (rd : Reg) (rs1 : Reg) (rs2 : Reg) (aqrl : BitVec 2) : Statement (.amoswapW rd rs1 rs2 aqrl) :=
  ⟨_, rfl, hits_of (encA_maskF800707F ..) (by decide),
    by simp only [encode, fRd_encA, fRs1_encA, fRs2_encA, fAqRl_encA]⟩

theorem amoaddW (rd : Reg) (rs1 : Reg) (rs2 : Reg) (aqrl : BitVec 2) : Statement (.amoaddW rd rs1 rs2 aqrl) :=
  ⟨_, rfl, hits_of (encA_maskF800707F ..) (by decide),
    by simp only [encode, fRd_encA, fRs1_encA, fRs2_encA, fAqRl_encA]⟩

theorem amoxorW (rd : Reg) (rs1 : Reg) (rs2 : Reg) (aqrl : BitVec 2) : Statement (.amoxorW rd rs1 rs2 aqrl) :=
  ⟨_, rfl, hits_of (encA_maskF800707F ..) (by decide),
    by simp only [encode, fRd_encA, fRs1_encA, fRs2_encA, fAqRl_encA]⟩

theorem amoandW (rd : Reg) (rs1 : Reg) (rs2 : Reg) (aqrl : BitVec 2) : Statement (.amoandW rd rs1 rs2 aqrl) :=
  ⟨_, rfl, hits_of (encA_maskF800707F ..) (by decide),
    by simp only [encode, fRd_encA, fRs1_encA, fRs2_encA, fAqRl_encA]⟩

theorem amoorW (rd : Reg) (rs1 : Reg) (rs2 : Reg) (aqrl : BitVec 2) : Statement (.amoorW rd rs1 rs2 aqrl) :=
  ⟨_, rfl, hits_of (encA_maskF800707F ..) (by decide),
    by simp only [encode, fRd_encA, fRs1_encA, fRs2_encA, fAqRl_encA]⟩

theorem amominW (rd : Reg) (rs1 : Reg) (rs2 : Reg) (aqrl : BitVec 2) : Statement (.amominW rd rs1 rs2 aqrl) :=
  ⟨_, rfl, hits_of (encA_maskF800707F ..) (by decide),
    by simp only [encode, fRd_encA, fRs1_encA, fRs2_encA, fAqRl_encA]⟩

theorem amomaxW (rd : Reg) (rs1 : Reg) (rs2 : Reg) (aqrl : BitVec 2) : Statement (.amomaxW rd rs1 rs2 aqrl) :=
  ⟨_, rfl, hits_of (encA_maskF800707F ..) (by decide),
    by simp only [encode, fRd_encA, fRs1_encA, fRs2_encA, fAqRl_encA]⟩

theorem amominuW (rd : Reg) (rs1 : Reg) (rs2 : Reg) (aqrl : BitVec 2) : Statement (.amominuW rd rs1 rs2 aqrl) :=
  ⟨_, rfl, hits_of (encA_maskF800707F ..) (by decide),
    by simp only [encode, fRd_encA, fRs1_encA, fRs2_encA, fAqRl_encA]⟩

theorem amomaxuW (rd : Reg) (rs1 : Reg) (rs2 : Reg) (aqrl : BitVec 2) : Statement (.amomaxuW rd rs1 rs2 aqrl) :=
  ⟨_, rfl, hits_of (encA_maskF800707F ..) (by decide),
    by simp only [encode, fRd_encA, fRs1_encA, fRs2_encA, fAqRl_encA]⟩

theorem lrD (rd : Reg) (rs1 : Reg) (aqrl : BitVec 2) : Statement (.lrD rd rs1 aqrl) :=
  ⟨_, rfl, hits_of (encA_maskF9F0707F ..) (by decide),
    by simp only [encode, fRd_encA, fRs1_encA, fAqRl_encA]⟩

theorem scD (rd : Reg) (rs1 : Reg) (rs2 : Reg) (aqrl : BitVec 2) : Statement (.scD rd rs1 rs2 aqrl) :=
  ⟨_, rfl, hits_of (encA_maskF800707F ..) (by decide),
    by simp only [encode, fRd_encA, fRs1_encA, fRs2_encA, fAqRl_encA]⟩

theorem amoswapD (rd : Reg) (rs1 : Reg) (rs2 : Reg) (aqrl : BitVec 2) : Statement (.amoswapD rd rs1 rs2 aqrl) :=
  ⟨_, rfl, hits_of (encA_maskF800707F ..) (by decide),
    by simp only [encode, fRd_encA, fRs1_encA, fRs2_encA, fAqRl_encA]⟩

theorem amoaddD (rd : Reg) (rs1 : Reg) (rs2 : Reg) (aqrl : BitVec 2) : Statement (.amoaddD rd rs1 rs2 aqrl) :=
  ⟨_, rfl, hits_of (encA_maskF800707F ..) (by decide),
    by simp only [encode, fRd_encA, fRs1_encA, fRs2_encA, fAqRl_encA]⟩

theorem amoxorD (rd : Reg) (rs1 : Reg) (rs2 : Reg) (aqrl : BitVec 2) : Statement (.amoxorD rd rs1 rs2 aqrl) :=
  ⟨_, rfl, hits_of (encA_maskF800707F ..) (by decide),
    by simp only [encode, fRd_encA, fRs1_encA, fRs2_encA, fAqRl_encA]⟩

theorem amoandD (rd : Reg) (rs1 : Reg) (rs2 : Reg) (aqrl : BitVec 2) : Statement (.amoandD rd rs1 rs2 aqrl) :=
  ⟨_, rfl, hits_of (encA_maskF800707F ..) (by decide),
    by simp only [encode, fRd_encA, fRs1_encA, fRs2_encA, fAqRl_encA]⟩

theorem amoorD (rd : Reg) (rs1 : Reg) (rs2 : Reg) (aqrl : BitVec 2) : Statement (.amoorD rd rs1 rs2 aqrl) :=
  ⟨_, rfl, hits_of (encA_maskF800707F ..) (by decide),
    by simp only [encode, fRd_encA, fRs1_encA, fRs2_encA, fAqRl_encA]⟩

theorem amominD (rd : Reg) (rs1 : Reg) (rs2 : Reg) (aqrl : BitVec 2) : Statement (.amominD rd rs1 rs2 aqrl) :=
  ⟨_, rfl, hits_of (encA_maskF800707F ..) (by decide),
    by simp only [encode, fRd_encA, fRs1_encA, fRs2_encA, fAqRl_encA]⟩

theorem amomaxD (rd : Reg) (rs1 : Reg) (rs2 : Reg) (aqrl : BitVec 2) : Statement (.amomaxD rd rs1 rs2 aqrl) :=
  ⟨_, rfl, hits_of (encA_maskF800707F ..) (by decide),
    by simp only [encode, fRd_encA, fRs1_encA, fRs2_encA, fAqRl_encA]⟩

theorem amominuD (rd : Reg) (rs1 : Reg) (rs2 : Reg) (aqrl : BitVec 2) : Statement (.amominuD rd rs1 rs2 aqrl) :=
  ⟨_, rfl, hits_of (encA_maskF800707F ..) (by decide),
    by simp only [encode, fRd_encA, fRs1_encA, fRs2_encA, fAqRl_encA]⟩

theorem amomaxuD (rd : Reg) (rs1 : Reg) (rs2 : Reg) (aqrl : BitVec 2) : Statement (.amomaxuD rd rs1 rs2 aqrl) :=
  ⟨_, rfl, hits_of (encA_maskF800707F ..) (by decide),
    by simp only [encode, fRd_encA, fRs1_encA, fRs2_encA, fAqRl_encA]⟩

theorem flw (rd : Reg) (rs1 : Reg) (imm : BitVec 12) : Statement (.flw rd rs1 imm) :=
  ⟨_, rfl, hits_of (encI_mask707F ..) (by decide),
    by simp only [encode, fRd_encI, fRs1_encI, fImmI_encI]⟩

theorem fsw (rs1 : Reg) (rs2 : Reg) (imm : BitVec 12) : Statement (.fsw rs1 rs2 imm) :=
  ⟨_, rfl, hits_of (encS_mask707F ..) (by decide),
    by simp only [encode, fRs1_encS, fRs2_encS, fImmS_encS]⟩

theorem fmaddS (rd : Reg) (rs1 : Reg) (rs2 : Reg) (rs3 : Reg) (rm : BitVec 3) : Statement (.fmaddS rd rs1 rs2 rs3 rm) :=
  ⟨_, rfl, hits_of (encR4_mask600007F ..) (by decide),
    by simp only [encode, fRd_encR4, fRs1_encR4, fRs2_encR4, fRs3_encR4, fRm_encR4]⟩

theorem fmsubS (rd : Reg) (rs1 : Reg) (rs2 : Reg) (rs3 : Reg) (rm : BitVec 3) : Statement (.fmsubS rd rs1 rs2 rs3 rm) :=
  ⟨_, rfl, hits_of (encR4_mask600007F ..) (by decide),
    by simp only [encode, fRd_encR4, fRs1_encR4, fRs2_encR4, fRs3_encR4, fRm_encR4]⟩

theorem fnmsubS (rd : Reg) (rs1 : Reg) (rs2 : Reg) (rs3 : Reg) (rm : BitVec 3) : Statement (.fnmsubS rd rs1 rs2 rs3 rm) :=
  ⟨_, rfl, hits_of (encR4_mask600007F ..) (by decide),
    by simp only [encode, fRd_encR4, fRs1_encR4, fRs2_encR4, fRs3_encR4, fRm_encR4]⟩

theorem fnmaddS (rd : Reg) (rs1 : Reg) (rs2 : Reg) (rs3 : Reg) (rm : BitVec 3) : Statement (.fnmaddS rd rs1 rs2 rs3 rm) :=
  ⟨_, rfl, hits_of (encR4_mask600007F ..) (by decide),
    by simp only [encode, fRd_encR4, fRs1_encR4, fRs2_encR4, fRs3_encR4, fRm_encR4]⟩

theorem faddS (rd : Reg) (rs1 : Reg) (rs2 : Reg) (rm : BitVec 3) : Statement (.faddS rd rs1 rs2 rm) :=
  ⟨_, rfl, hits_of (encR_maskFE00007F ..) (by decide),
    by simp only [encode, fRd_encR, fRs1_encR, fRs2_encR, fRm_encR]⟩

theorem fsubS (rd : Reg) (rs1 : Reg) (rs2 : Reg) (rm : BitVec 3) : Statement (.fsubS rd rs1 rs2 rm) :=
  ⟨_, rfl, hits_of (encR_maskFE00007F ..) (by decide),
    by simp only [encode, fRd_encR, fRs1_encR, fRs2_encR, fRm_encR]⟩

theorem fmulS (rd : Reg) (rs1 : Reg) (rs2 : Reg) (rm : BitVec 3) : Statement (.fmulS rd rs1 rs2 rm) :=
  ⟨_, rfl, hits_of (encR_maskFE00007F ..) (by decide),
    by simp only [encode, fRd_encR, fRs1_encR, fRs2_encR, fRm_encR]⟩

theorem fdivS (rd : Reg) (rs1 : Reg) (rs2 : Reg) (rm : BitVec 3) : Statement (.fdivS rd rs1 rs2 rm) :=
  ⟨_, rfl, hits_of (encR_maskFE00007F ..) (by decide),
    by simp only [encode, fRd_encR, fRs1_encR, fRs2_encR, fRm_encR]⟩

theorem fsqrtS (rd : Reg) (rs1 : Reg) (rm : BitVec 3) : Statement (.fsqrtS rd rs1 rm) :=
  ⟨_, rfl, hits_of (encR_maskFFF0007F ..) (by decide),
    by simp only [encode, fRd_encR, fRs1_encR, fRm_encR]⟩

theorem fsgnjS (rd : Reg) (rs1 : Reg) (rs2 : Reg) : Statement (.fsgnjS rd rs1 rs2) :=
  ⟨_, rfl, hits_of (encR_maskFE00707F ..) (by decide),
    by simp only [encode, fRd_encR, fRs1_encR, fRs2_encR]⟩

theorem fsgnjnS (rd : Reg) (rs1 : Reg) (rs2 : Reg) : Statement (.fsgnjnS rd rs1 rs2) :=
  ⟨_, rfl, hits_of (encR_maskFE00707F ..) (by decide),
    by simp only [encode, fRd_encR, fRs1_encR, fRs2_encR]⟩

theorem fsgnjxS (rd : Reg) (rs1 : Reg) (rs2 : Reg) : Statement (.fsgnjxS rd rs1 rs2) :=
  ⟨_, rfl, hits_of (encR_maskFE00707F ..) (by decide),
    by simp only [encode, fRd_encR, fRs1_encR, fRs2_encR]⟩

theorem fminS (rd : Reg) (rs1 : Reg) (rs2 : Reg) : Statement (.fminS rd rs1 rs2) :=
  ⟨_, rfl, hits_of (encR_maskFE00707F ..) (by decide),
    by simp only [encode, fRd_encR, fRs1_encR, fRs2_encR]⟩

theorem fmaxS (rd : Reg) (rs1 : Reg) (rs2 : Reg) : Statement (.fmaxS rd rs1 rs2) :=
  ⟨_, rfl, hits_of (encR_maskFE00707F ..) (by decide),
    by simp only [encode, fRd_encR, fRs1_encR, fRs2_encR]⟩

theorem fcvtWS (rd : Reg) (rs1 : Reg) (rm : BitVec 3) : Statement (.fcvtWS rd rs1 rm) :=
  ⟨_, rfl, hits_of (encR_maskFFF0007F ..) (by decide),
    by simp only [encode, fRd_encR, fRs1_encR, fRm_encR]⟩

theorem fcvtWuS (rd : Reg) (rs1 : Reg) (rm : BitVec 3) : Statement (.fcvtWuS rd rs1 rm) :=
  ⟨_, rfl, hits_of (encR_maskFFF0007F ..) (by decide),
    by simp only [encode, fRd_encR, fRs1_encR, fRm_encR]⟩

theorem fmvXW (rd : Reg) (rs1 : Reg) : Statement (.fmvXW rd rs1) :=
  ⟨_, rfl, hits_of (encR_maskFFF0707F ..) (by decide),
    by simp only [encode, fRd_encR, fRs1_encR]⟩

theorem feqS (rd : Reg) (rs1 : Reg) (rs2 : Reg) : Statement (.feqS rd rs1 rs2) :=
  ⟨_, rfl, hits_of (encR_maskFE00707F ..) (by decide),
    by simp only [encode, fRd_encR, fRs1_encR, fRs2_encR]⟩

theorem fltS (rd : Reg) (rs1 : Reg) (rs2 : Reg) : Statement (.fltS rd rs1 rs2) :=
  ⟨_, rfl, hits_of (encR_maskFE00707F ..) (by decide),
    by simp only [encode, fRd_encR, fRs1_encR, fRs2_encR]⟩

theorem fleS (rd : Reg) (rs1 : Reg) (rs2 : Reg) : Statement (.fleS rd rs1 rs2) :=
  ⟨_, rfl, hits_of (encR_maskFE00707F ..) (by decide),
    by simp only [encode, fRd_encR, fRs1_encR, fRs2_encR]⟩

theorem fclassS (rd : Reg) (rs1 : Reg) : Statement (.fclassS rd rs1) :=
  ⟨_, rfl, hits_of (encR_maskFFF0707F ..) (by decide),
    by simp only [encode, fRd_encR, fRs1_encR]⟩

theorem fcvtSW (rd : Reg) (rs1 : Reg) (rm : BitVec 3) : Statement (.fcvtSW rd rs1 rm) :=
  ⟨_, rfl, hits_of (encR_maskFFF0007F ..) (by decide),
    by simp only [encode, fRd_encR, fRs1_encR, fRm_encR]⟩

theorem fcvtSWu (rd : Reg) (rs1 : Reg) (rm : BitVec 3) : Statement (.fcvtSWu rd rs1 rm) :=
  ⟨_, rfl, hits_of (encR_maskFFF0007F ..) (by decide),
    by simp only [encode, fRd_encR, fRs1_encR, fRm_encR]⟩

theorem fmvWX (rd : Reg) (rs1 : Reg) : Statement (.fmvWX rd rs1) :=
  ⟨_, rfl, hits_of (encR_maskFFF0707F ..) (by decide),
    by simp only [encode, fRd_encR, fRs1_encR]⟩

theorem fcvtLS (rd : Reg) (rs1 : Reg) (rm : BitVec 3) : Statement (.fcvtLS rd rs1 rm) :=
  ⟨_, rfl, hits_of (encR_maskFFF0007F ..) (by decide),
    by simp only [encode, fRd_encR, fRs1_encR, fRm_encR]⟩

theorem fcvtLuS (rd : Reg) (rs1 : Reg) (rm : BitVec 3) : Statement (.fcvtLuS rd rs1 rm) :=
  ⟨_, rfl, hits_of (encR_maskFFF0007F ..) (by decide),
    by simp only [encode, fRd_encR, fRs1_encR, fRm_encR]⟩

theorem fcvtSL (rd : Reg) (rs1 : Reg) (rm : BitVec 3) : Statement (.fcvtSL rd rs1 rm) :=
  ⟨_, rfl, hits_of (encR_maskFFF0007F ..) (by decide),
    by simp only [encode, fRd_encR, fRs1_encR, fRm_encR]⟩

theorem fcvtSLu (rd : Reg) (rs1 : Reg) (rm : BitVec 3) : Statement (.fcvtSLu rd rs1 rm) :=
  ⟨_, rfl, hits_of (encR_maskFFF0007F ..) (by decide),
    by simp only [encode, fRd_encR, fRs1_encR, fRm_encR]⟩

theorem cAddi4spn (rd' : CReg) (nzuimm : BitVec 8) : Statement (.cAddi4spn rd' nzuimm) :=
  ⟨_, rfl, hits_of (encCIW_maskE003 ..) (by decide),
    by simp only [encode, cRd'_encCIW, cUimmCIW_encCIW]⟩

theorem cLw (rd' : CReg) (rs1' : CReg) (uimm : BitVec 5) : Statement (.cLw rd' rs1' uimm) :=
  ⟨_, rfl, hits_of (encCL_maskE003 ..) (by decide),
    by simp only [encode, cRd'_encCL, cRs1'_encCL, cUimmLW_encCL]⟩

theorem cLd (rd' : CReg) (rs1' : CReg) (uimm : BitVec 5) : Statement (.cLd rd' rs1' uimm) :=
  ⟨_, rfl, hits_of (encCL_maskE003 ..) (by decide),
    by simp only [encode, cRd'_encCL, cRs1'_encCL, cUimmLD_encCL]⟩

theorem cSw (rs1' : CReg) (rs2' : CReg) (uimm : BitVec 5) : Statement (.cSw rs1' rs2' uimm) :=
  ⟨_, rfl, hits_of (encCL_maskE003 ..) (by decide),
    by simp only [encode, cRs1'_encCL, cRs2'_encCL, cUimmLW_encCL]⟩

theorem cSd (rs1' : CReg) (rs2' : CReg) (uimm : BitVec 5) : Statement (.cSd rs1' rs2' uimm) :=
  ⟨_, rfl, hits_of (encCL_maskE003 ..) (by decide),
    by simp only [encode, cRs1'_encCL, cRs2'_encCL, cUimmLD_encCL]⟩

theorem cNop : Statement (.cNop) :=
  ⟨_, rfl, by decide, rfl⟩

theorem cAddi (rd : Reg) (imm : BitVec 6) : Statement (.cAddi rd imm) :=
  ⟨_, rfl, hits_of (encCI_maskE003 ..) (by decide),
    by simp only [encode, cRd_encCI, cImm6_encCI]⟩

theorem cAddiw (rd : Reg) (imm : BitVec 6) : Statement (.cAddiw rd imm) :=
  ⟨_, rfl, hits_of (encCI_maskE003 ..) (by decide),
    by simp only [encode, cRd_encCI, cImm6_encCI]⟩

theorem cLi (rd : Reg) (imm : BitVec 6) : Statement (.cLi rd imm) :=
  ⟨_, rfl, hits_of (encCI_maskE003 ..) (by decide),
    by simp only [encode, cRd_encCI, cImm6_encCI]⟩

theorem cAddi16sp (imm : BitVec 6) : Statement (.cAddi16sp imm) :=
  ⟨_, rfl, hits_of (encCI_maskEF83 ..) (by decide),
    by simp only [encode, cImm16spField_encCI]⟩

theorem cLui (rd : Reg) (imm : BitVec 6) : Statement (.cLui rd imm) :=
  ⟨_, rfl, hits_of (encCI_maskE003 ..) (by decide),
    by simp only [encode, cRd_encCI, cImm6_encCI]⟩

theorem cSrli (rd' : CReg) (shamt : BitVec 6) : Statement (.cSrli rd' shamt) :=
  ⟨_, rfl, hits_of (encCBa_maskEC03 ..) (by decide),
    by simp only [encode, cRs1'_encCBa, cImm6_encCBa]⟩

theorem cSrai (rd' : CReg) (shamt : BitVec 6) : Statement (.cSrai rd' shamt) :=
  ⟨_, rfl, hits_of (encCBa_maskEC03 ..) (by decide),
    by simp only [encode, cRs1'_encCBa, cImm6_encCBa]⟩

theorem cAndi (rd' : CReg) (imm : BitVec 6) : Statement (.cAndi rd' imm) :=
  ⟨_, rfl, hits_of (encCBa_maskEC03 ..) (by decide),
    by simp only [encode, cRs1'_encCBa, cImm6_encCBa]⟩

theorem cSub (rd' : CReg) (rs2' : CReg) : Statement (.cSub rd' rs2') :=
  ⟨_, rfl, hits_of (encCA_maskFC63 ..) (by decide),
    by simp only [encode, cRs1'_encCA, cRs2'_encCA]⟩

theorem cXor (rd' : CReg) (rs2' : CReg) : Statement (.cXor rd' rs2') :=
  ⟨_, rfl, hits_of (encCA_maskFC63 ..) (by decide),
    by simp only [encode, cRs1'_encCA, cRs2'_encCA]⟩

theorem cOr (rd' : CReg) (rs2' : CReg) : Statement (.cOr rd' rs2') :=
  ⟨_, rfl, hits_of (encCA_maskFC63 ..) (by decide),
    by simp only [encode, cRs1'_encCA, cRs2'_encCA]⟩

theorem cAnd (rd' : CReg) (rs2' : CReg) : Statement (.cAnd rd' rs2') :=
  ⟨_, rfl, hits_of (encCA_maskFC63 ..) (by decide),
    by simp only [encode, cRs1'_encCA, cRs2'_encCA]⟩

theorem cSubw (rd' : CReg) (rs2' : CReg) : Statement (.cSubw rd' rs2') :=
  ⟨_, rfl, hits_of (encCA_maskFC63 ..) (by decide),
    by simp only [encode, cRs1'_encCA, cRs2'_encCA]⟩

theorem cAddw (rd' : CReg) (rs2' : CReg) : Statement (.cAddw rd' rs2') :=
  ⟨_, rfl, hits_of (encCA_maskFC63 ..) (by decide),
    by simp only [encode, cRs1'_encCA, cRs2'_encCA]⟩

theorem cJ (off : BitVec 11) : Statement (.cJ off) :=
  ⟨_, rfl, hits_of (encCJ_maskE003 ..) (by decide),
    by simp only [encode, cOffJ_encCJ]⟩

theorem cBeqz (rs1' : CReg) (off : BitVec 8) : Statement (.cBeqz rs1' off) :=
  ⟨_, rfl, hits_of (encCB_maskE003 ..) (by decide),
    by simp only [encode, cRs1'_encCB, cOffB_encCB]⟩

theorem cBnez (rs1' : CReg) (off : BitVec 8) : Statement (.cBnez rs1' off) :=
  ⟨_, rfl, hits_of (encCB_maskE003 ..) (by decide),
    by simp only [encode, cRs1'_encCB, cOffB_encCB]⟩

theorem cSlli (rd : Reg) (shamt : BitVec 6) : Statement (.cSlli rd shamt) :=
  ⟨_, rfl, hits_of (encCI_maskE003 ..) (by decide),
    by simp only [encode, cRd_encCI, cImm6_encCI]⟩

theorem cLwsp (rd : Reg) (uimm : BitVec 6) : Statement (.cLwsp rd uimm) :=
  ⟨_, rfl, hits_of (encCI_maskE003 ..) (by decide),
    by simp only [encode, cRd_encCI, cUimmLWSP_encCI]⟩

theorem cLdsp (rd : Reg) (uimm : BitVec 6) : Statement (.cLdsp rd uimm) :=
  ⟨_, rfl, hits_of (encCI_maskE003 ..) (by decide),
    by simp only [encode, cRd_encCI, cUimmLDSP_encCI]⟩

theorem cJr (rs1 : Reg) : Statement (.cJr rs1) :=
  ⟨_, rfl, hits_of (encCR_maskF07F ..) (by decide),
    by simp only [encode, cRd_encCR]⟩

theorem cMv (rd : Reg) (rs2 : Reg) : Statement (.cMv rd rs2) :=
  ⟨_, rfl, hits_of (encCR_maskF003 ..) (by decide),
    by simp only [encode, cRd_encCR, cRs2_encCR]⟩

theorem cEbreak : Statement (.cEbreak) :=
  ⟨_, rfl, by decide, rfl⟩

theorem cJalr (rs1 : Reg) : Statement (.cJalr rs1) :=
  ⟨_, rfl, hits_of (encCR_maskF07F ..) (by decide),
    by simp only [encode, cRd_encCR]⟩

theorem cAdd (rd : Reg) (rs2 : Reg) : Statement (.cAdd rd rs2) :=
  ⟨_, rfl, hits_of (encCR_maskF003 ..) (by decide),
    by simp only [encode, cRd_encCR, cRs2_encCR]⟩

theorem cSwsp (rs2 : Reg) (uimm : BitVec 6) : Statement (.cSwsp rs2 uimm) :=
  ⟨_, rfl, hits_of (encCSS_maskE003 ..) (by decide),
    by simp only [encode, cRs2_encCSS, cUimmSWSP_encCSS]⟩

theorem cSdsp (rs2 : Reg) (uimm : BitVec 6) : Statement (.cSdsp rs2 uimm) :=
  ⟨_, rfl, hits_of (encCSS_maskE003 ..) (by decide),
    by simp only [encode, cRs2_encCSS, cUimmSDSP_encCSS]⟩

end Sys2Proof.Laws.Reads
end

