-- ==== Sys2Proof/Tests/Slice0.lean ====
section
/-! SUPPORT. Slice0.lean: the model's own tests and the witnesses of the statements' hypotheses. Expected values are the
spec's: the examples of 40_base_integer.md to 45_sentinels.md and the vectors of 95_test_vectors.md and
96_test_vectors_families.md. -/
set_option Elab.async false

namespace Sys2Proof.Tests

open Machine

/-- A start state: reset with pc, integer registers, float registers and little-endian memory values set. -/
def st (pc : Word) (xs fs : List (Reg × Word)) (ms : List (Word × Nat × Word)) : State :=
  let s := xs.foldl (fun s p => s.setX p.1 p.2) (State.reset.withPc pc)
  let s := fs.foldl (fun s p => s.setF p.1 p.2) s
  s.withMem (ms.foldl (fun m p => storeLE m p.1 p.2.2 p.2.1) s.mem)

/-- The state with a facade that refuses these accesses. -/
def withFacade (s : State) (ds : List Denial) : State := { s with facade := ds }

/-- The word decodes, its execution from `s` ends OK, and the end state passes. -/
def ran (w : Word32) (s : State) (p : State → Bool) : Bool :=
  match decode w with
  | .ok i => match exec i s with
    | .next t => p t
    | _ => false
  | .error _ => false

/-- How the execution of a word from `s` ends, when it does not end OK. -/
def stops (w : Word32) (s : State) (f : Fault) : Bool :=
  match decode w with
  | .ok i => match exec i s with
    | .fault g => g == f
    | _ => false
  | .error _ => f == .decodeFailure

/-! ### WellFormed: an ill-formed term for each check -/

theorem test_illformed_cAddi : WellFormed (.cAddi 0 0) = false := by decide
theorem test_illformed_cLui : WellFormed (.cLui 2 1) = false := by decide
theorem test_illformed_cMv : WellFormed (.cMv 1 0) = false := by decide
theorem test_illformed_cJalr : WellFormed (.cJalr 0) = false := by decide
theorem test_illformed_cAdd : WellFormed (.cAdd 1 0) = false := by decide
theorem test_wellformed_forms :
    [Instr.cAddi 0 1, .cAddi 1 0, .cLui 1 0, .cMv 0 1, .cJalr 1, .cAdd 0 1, .addi 0 0 0].all WellFormed = true := by decide

/-! ### Words written out bit by bit from the formats of R92 and R98 -/

theorem test_bits_lui : decode (0b00000000000000000001#20 ++ 0b00101#5 ++ 0b0110111#7) = .ok (.lui 5 1) := by decide
theorem test_bits_jal : decode (0b1#1 ++ 0b1111111100#10 ++ 0b1#1 ++ 0b11111111#8 ++ 0b00001#5 ++ 0b1101111#7) =
    .ok (.jal 1 (BitVec.ofInt 20 (-4))) := by decide
theorem test_bits_beq : decode (0b0#1 ++ 0b000000#6 ++ 0b01011#5 ++ 0b01010#5 ++ 0b000#3 ++ 0b0100#4 ++ 0b0#1 ++ 0b1100011#7) =
    .ok (.beq 10 11 4) := by decide
theorem test_bits_lw : decode (0b000000000100#12 ++ 0b00010#5 ++ 0b010#3 ++ 0b01010#5 ++ 0b0000011#7) =
    .ok (.lw 10 2 4) := by decide
theorem test_bits_sw : decode (0b0000000#7 ++ 0b01010#5 ++ 0b00010#5 ++ 0b010#3 ++ 0b00100#5 ++ 0b0100011#7) =
    .ok (.sw 2 10 4) := by decide
theorem test_bits_srai : decode (0b010000#6 ++ 0b111111#6 ++ 0b00110#5 ++ 0b101#3 ++ 0b00101#5 ++ 0b0010011#7) =
    .ok (.srai 5 6 63) := by decide
theorem test_bits_subw : decode (0b0100000#7 ++ 0b00111#5 ++ 0b00110#5 ++ 0b000#3 ++ 0b00101#5 ++ 0b0111011#7) =
    .ok (.subw 5 6 7) := by decide
theorem test_bits_mulhsu : decode (0b0000001#7 ++ 0b00111#5 ++ 0b00110#5 ++ 0b010#3 ++ 0b00101#5 ++ 0b0110011#7) =
    .ok (.mulhsu 5 6 7) := by decide
theorem test_bits_amoaddW :
    decode (0b00000#5 ++ 0b11#2 ++ 0b01011#5 ++ 0b01010#5 ++ 0b010#3 ++ 0b00101#5 ++ 0b0101111#7) =
    .ok (.amoaddW 5 10 11 0b11) := by decide
theorem test_bits_fmadd :
    decode (0b00100#5 ++ 0b00#2 ++ 0b00011#5 ++ 0b00010#5 ++ 0b000#3 ++ 0b00001#5 ++ 0b1000011#7) =
    .ok (.fmaddS 1 2 3 4 0) := by decide
theorem test_bits_cAddi : decode (0#16 ++ 0b000#3 ++ 0b1#1 ++ 0b01010#5 ++ 0b11111#5 ++ 0b01#2) =
    .ok (.cAddi 10 0b111111) := by decide
theorem test_bits_cJ : decode (0#16 ++ 0b101#3 ++ 0b11111111101#11 ++ 0b01#2) = .ok (.cJ (BitVec.ofInt 11 (-2))) := by decide
theorem test_bits_ebreak : decode 0x00100073 = .ok .ebreak ∧ decode 0x00009002 = .ok .cEbreak := by decide

/-! ### Every table entry: the spec's example word of its rule -/

/-- The `Decode` results of the examples of R141 to R150, and the entry that matched. -/
theorem test_decode_control :
    ([(0x80000537, .lui 10 0x80000000, 0),
      (0xFFFFF297, .auipc 5 0xFFFFF000, 1),
      (0xFF9FF0EF, .jal 1 0xFFFFFFF8, 2),
      (0x003282E7, .jalr 5 5 0x00000003, 3),
      (0x00B50463, .b 10 11 0x00000008 0, 4),
      (0xFE051EE3, .b 10 0 0xFFFFFFFC 1, 5),
      (0x0062C863, .b 5 6 0x00000010 4, 6),
      (0x0062D863, .b 5 6 0x00000010 5, 7),
      (0x0062E863, .b 5 6 0x00000010 6, 8),
      (0x8062F0E3, .b 5 6 0xFFFFF800 7, 9)] : List (Word32 × RISCVInst × Nat)).all (fun p =>
      (decodeBlock p.1).inst == p.2.1 && (decodeBlock p.1).pattern == some p.2.2) = true := by decide +kernel

/-- The `Decode` results of the examples of R151 to R161, and the entry that matched. -/
theorem test_decode_loads_stores :
    ([(0xFFF30283, .lb 5 6 0xFFFFFFFF, 10),
      (0x00131283, .lh 5 6 0x00000001, 11),
      (0x00412503, .lw 10 2 0x00000004, 12),
      (0x00813503, .ld 10 2 0x00000008, 13),
      (0x00034283, .lbu 5 6 0x00000000, 14),
      (0x00235283, .lhu 5 6 0x00000002, 15),
      (0x00416503, .lwu 10 2 0x00000004, 16),
      (0xFE530FA3, .sb 6 5 0xFFFFFFFF, 17),
      (0x00531023, .sh 6 5 0x00000000, 18),
      (0x00A12223, .sw 2 10 0x00000004, 19),
      (0x00113423, .sd 2 1 0x00000008, 20)] : List (Word32 × RISCVInst × Nat)).all (fun p =>
      (decodeBlock p.1).inst == p.2.1 && (decodeBlock p.1).pattern == some p.2.2) = true := by decide +kernel

/-- The `Decode` results of the examples of R162 to R170, and the entry that matched. -/
theorem test_decode_immediate_alu :
    ([(0xFFF30293, .addi 5 6 0xFFFFFFFF, 21),
      (0xFFF32293, .slti 5 6 0xFFFFFFFF, 22),
      (0xFFF33293, .sltiu 5 6 0xFFFFFFFF, 23),
      (0xFFF34293, .xori 5 6 0xFFFFFFFF, 24),
      (0x7FF36293, .ori 5 6 0x000007FF, 25),
      (0x0FF37293, .andi 5 6 0x000000FF, 26),
      (0x02051513, .slli 10 10 32, 27),
      (0x03F35293, .srli 5 6 63, 28),
      (0x43F35293, .srai 5 6 63, 29)] : List (Word32 × RISCVInst × Nat)).all (fun p =>
      (decodeBlock p.1).inst == p.2.1 && (decodeBlock p.1).pattern == some p.2.2) = true := by decide +kernel

/-- The `Decode` results of the examples of R171 to R180, and the entry that matched. -/
theorem test_decode_register_alu :
    ([(0x007302B3, .add 5 6 7, 30),
      (0x407302B3, .sub 5 6 7, 31),
      (0x007312B3, .sll 5 6 7, 32),
      (0x007322B3, .slt 5 6 7, 33),
      (0x007332B3, .sltu 5 6 7, 34),
      (0x007342B3, .xor 5 6 7, 35),
      (0x007352B3, .srl 5 6 7, 36),
      (0x407352B3, .sra 5 6 7, 37),
      (0x007362B3, .or 5 6 7, 38),
      (0x007372B3, .and 5 6 7, 39)] : List (Word32 × RISCVInst × Nat)).all (fun p =>
      (decodeBlock p.1).inst == p.2.1 && (decodeBlock p.1).pattern == some p.2.2) = true := by decide +kernel

/-- The `Decode` results of the examples of R181 to R189, and the entry that matched. -/
theorem test_decode_word_alu :
    ([(0x0003029B, .addiw 5 6 0x00000000, 40),
      (0x01F3129B, .slliw 5 6 31, 41),
      (0x0003529B, .srliw 5 6 0, 42),
      (0x4043529B, .sraiw 5 6 4, 43),
      (0x007302BB, .addw 5 6 7, 44),
      (0x407302BB, .subw 5 6 7, 45),
      (0x007312BB, .sllw 5 6 7, 46),
      (0x007352BB, .srlw 5 6 7, 47),
      (0x407352BB, .sraw 5 6 7, 48)] : List (Word32 × RISCVInst × Nat)).all (fun p =>
      (decodeBlock p.1).inst == p.2.1 && (decodeBlock p.1).pattern == some p.2.2) = true := by decide +kernel

/-- The `Decode` results of the examples of R201 to R213, and the entry that matched. -/
theorem test_decode_muldiv :
    ([(0x027302B3, .mul 5 6 7, 50),
      (0x027312B3, .mulh 5 6 7, 51),
      (0x027322B3, .mulhsu 5 6 7, 52),
      (0x027332B3, .mulhu 5 6 7, 53),
      (0x027342B3, .div 5 6 7, 54),
      (0x027352B3, .divu 5 6 7, 55),
      (0x027362B3, .rem 5 6 7, 56),
      (0x027372B3, .remu 5 6 7, 57),
      (0x027302BB, .mulw 5 6 7, 58),
      (0x027342BB, .divw 5 6 7, 59),
      (0x027352BB, .divuw 5 6 7, 60),
      (0x027362BB, .remw 5 6 7, 61),
      (0x027372BB, .remuw 5 6 7, 62)] : List (Word32 × RISCVInst × Nat)).all (fun p =>
      (decodeBlock p.1).inst == p.2.1 && (decodeBlock p.1).pattern == some p.2.2) = true := by decide +kernel

/-- The `Decode` results of the examples of R222 to R232, and the entry that matched. -/
theorem test_decode_atomics_word :
    ([(0x100522AF, .lrW 5 10, 63),
      (0x18B522AF, .scW 5 10 11, 64),
      (0x08B522AF, .amoswapW 5 10 11, 65),
      (0x00B522AF, .amoaddW 5 10 11, 66),
      (0x20B522AF, .amoxorW 5 10 11, 67),
      (0x60B522AF, .amoandW 5 10 11, 68),
      (0x40B522AF, .amoorW 5 10 11, 69),
      (0x80B522AF, .amominW 5 10 11, 70),
      (0xA0B522AF, .amomaxW 5 10 11, 71),
      (0xC0B522AF, .amominuW 5 10 11, 72),
      (0xE0B522AF, .amomaxuW 5 10 11, 73)] : List (Word32 × RISCVInst × Nat)).all (fun p =>
      (decodeBlock p.1).inst == p.2.1 && (decodeBlock p.1).pattern == some p.2.2) = true := by decide +kernel

/-- The `Decode` results of the examples of R233 to R243, and the entry that matched. -/
theorem test_decode_atomics_double :
    ([(0x100532AF, .lrD 5 10, 74),
      (0x18B532AF, .scD 5 10 11, 75),
      (0x08B532AF, .amoswapD 5 10 11, 76),
      (0x00B532AF, .amoaddD 5 10 11, 77),
      (0x20B532AF, .amoxorD 5 10 11, 78),
      (0x60B532AF, .amoandD 5 10 11, 79),
      (0x40B532AF, .amoorD 5 10 11, 80),
      (0x80B532AF, .amominD 5 10 11, 81),
      (0xA0B532AF, .amomaxD 5 10 11, 82),
      (0xC0B532AF, .amominuD 5 10 11, 83),
      (0xE0B532AF, .amomaxuD 5 10 11, 84)] : List (Word32 × RISCVInst × Nat)).all (fun p =>
      (decodeBlock p.1).inst == p.2.1 && (decodeBlock p.1).pattern == some p.2.2) = true := by decide +kernel

/-- The `Decode` results of the examples of R253 to R258, and the entry that matched. -/
theorem test_decode_float_moves_and_fused :
    ([(0x00852087, .flw 1 10 0x00000008, 85),
      (0xFE252E27, .fsw 10 2 0xFFFFFFFC, 86),
      (0x203100C3, .fmaddS 1 2 3 4 0, 87),
      (0x203100C7, .fmsubS 1 2 3 4 0, 88),
      (0x203100CB, .fnmsubS 1 2 3 4 0, 89),
      (0x203100CF, .fnmaddS 1 2 3 4 0, 90)] : List (Word32 × RISCVInst × Nat)).all (fun p =>
      (decodeBlock p.1).inst == p.2.1 && (decodeBlock p.1).pattern == some p.2.2) = true := by decide +kernel

/-- The `Decode` results of the examples of R259 to R268, and the entry that matched. -/
theorem test_decode_float_arith :
    ([(0x003130D3, .faddS 1 2 3, 91),
      (0x083100D3, .fsubS 1 2 3, 92),
      (0x103110D3, .fmulS 1 2 3, 93),
      (0x183100D3, .fdivS 1 2 3, 94),
      (0x580100D3, .fsqrtS 1 2 0, 95),
      (0x203100D3, .fsgnjS 1 2 3, 96),
      (0x202110D3, .fsgnjnS 1 2 2, 97),
      (0x202120D3, .fsgnjxS 1 2 2, 98),
      (0x283100D3, .fminS 1 2 3, 99),
      (0x283110D3, .fmaxS 1 2 3, 100)] : List (Word32 × RISCVInst × Nat)).all (fun p =>
      (decodeBlock p.1).inst == p.2.1 && (decodeBlock p.1).pattern == some p.2.2) = true := by decide +kernel

/-- The `Decode` results of the examples of R269 to R282, and the entry that matched. -/
theorem test_decode_float_convert_compare :
    ([(0xC00112D3, .fcvtWS 5 2 0, 101),
      (0xC01102D3, .fcvtWuS 5 2 1, 102),
      (0xE00102D3, .fmvXW 5 2 0, 103),
      (0xA03122D3, .feqS 5 2 3, 104),
      (0xA03112D3, .fltS 5 2 3, 105),
      (0xA03102D3, .fleS 5 2 3, 106),
      (0xE00112D3, .fclassS 5 2 0, 107),
      (0xD00300D3, .fcvtSW 1 6 0, 108),
      (0xD01300D3, .fcvtSWu 1 6 1, 109),
      (0xF00300D3, .fmvWX 1 6 0, 110),
      (0xC02102D3, .fcvtLS 5 2 2, 111),
      (0xC03122D3, .fcvtLuS 5 2 3, 112),
      (0xD02300D3, .fcvtSL 1 6 2, 113),
      (0xD03310D3, .fcvtSLu 1 6 3, 114)] : List (Word32 × RISCVInst × Nat)).all (fun p =>
      (decodeBlock p.1).inst == p.2.1 && (decodeBlock p.1).pattern == some p.2.2) = true := by decide +kernel

/-- The `Decode` results of the examples of R305 to R309, and the entry that matched. -/
theorem test_decode_compressed_q0 :
    ([(0x0800, .addi 8 2 0x00000010, 115),
      (0x0000, .reserved 0x00000000, 115),
      (0x4544, .lw 9 10 0x0000000C, 116),
      (0x6D04, .ld 9 10 0x00000018, 117),
      (0xC544, .sw 10 9 0x0000000C, 118),
      (0xED04, .sd 10 9 0x00000018, 119)] : List (Word32 × RISCVInst × Nat)).all (fun p =>
      (decodeBlock p.1).inst == p.2.1 && (decodeBlock p.1).pattern == some p.2.2) = true := by decide +kernel

/-- The `Decode` results of the examples of R310 to R327, and the entry that matched. -/
theorem test_decode_compressed_q1 :
    ([(0x0001, .nop 0x00000001, 120),
      (0x157D, .addi 10 10 0xFFFFFFFF, 121),
      (0x0501, .hint 0x00000501, 121),
      (0x2501, .addiw 10 10 0x00000000, 122),
      (0x4505, .addi 10 0 0x00000001, 123),
      (0x7139, .addi 2 2 0xFFFFFFC0, 124),
      (0x757D, .lui 10 0xFFFFF000, 125),
      (0x907D, .srli 8 8 63, 126),
      (0x947D, .srai 8 8 63, 127),
      (0x9841, .andi 8 8 0xFFFFFFF0, 128),
      (0x8C05, .sub 8 8 9, 129),
      (0x8C25, .xor 8 8 9, 130),
      (0x8C45, .or 8 8 9, 131),
      (0x8C65, .and 8 8 9, 132),
      (0x9C05, .subw 8 8 9, 133),
      (0x9C25, .addw 8 8 9, 134),
      (0xBFF5, .jal 0 0xFFFFFFFC, 135),
      (0xC019, .b 8 0 0x00000006 0, 136),
      (0xE019, .b 8 0 0x00000006 1, 137)] : List (Word32 × RISCVInst × Nat)).all (fun p =>
      (decodeBlock p.1).inst == p.2.1 && (decodeBlock p.1).pattern == some p.2.2) = true := by decide +kernel

/-- The `Decode` results of the examples of R328 to R337, and the entry that matched. -/
theorem test_decode_compressed_q2 :
    ([(0x1502, .slli 10 10 32, 138),
      (0x4532, .lw 10 2 0x0000000C, 139),
      (0x60A2, .ld 1 2 0x00000008, 140),
      (0x8082, .jalr 0 1 0x00000000, 141),
      (0x852E, .add 10 0 11, 142),
      (0x9002, .ebreak 0x00009002, 143),
      (0x9082, .jalr 1 1 0x00000000, 144),
      (0x952E, .add 10 10 11, 145),
      (0xC22A, .sw 2 10 0x00000004, 146),
      (0xE406, .sd 2 1 0x00000008, 147)] : List (Word32 × RISCVInst × Nat)).all (fun p =>
      (decodeBlock p.1).inst == p.2.1 && (decodeBlock p.1).pattern == some p.2.2) = true := by decide +kernel

/-! ### One step each: the spec's example of the rule -/

/-- The end states of the examples of R141 to R150. -/
theorem test_run_control :
    ((ran 0x80000537 (st 0x1000 [] [] []) fun t => t.getX 10 == 0xFFFFFFFF80000000 && t.pc == 0x1004) &&
      (ran 0xFFFFF297 (st 0x2000 [] [] []) fun t => t.getX 5 == 0x1000 && t.pc == 0x2004) &&
      (ran 0xFF9FF0EF (st 0x1010 [] [] []) fun t => t.getX 1 == 0x1014 && t.pc == 0x1008) &&
      (ran 0x003282E7 (st 0x1000 [(5, 0x2000)] [] []) fun t => t.getX 5 == 0x1004 && t.pc == 0x2002) &&
      (ran 0x00B50463 (st 0x1000 [(10, 0x7), (11, 0x7)] [] []) fun t => t.pc == 0x1008) &&
      (ran 0xFE051EE3 (st 0x1000 [(10, 0x1)] [] []) fun t => t.pc == 0xFFC) &&
      (ran 0x0062C863 (st 0x1000 [(5, 0xFFFFFFFFFFFFFFFF), (6, 0x1)] [] []) fun t => t.pc == 0x1010) &&
      (ran 0x0062D863 (st 0x1000 [(5, 0xFFFFFFFFFFFFFFFF), (6, 0x1)] [] []) fun t => t.pc == 0x1004) &&
      (ran 0x0062E863 (st 0x1000 [(5, 0xFFFFFFFFFFFFFFFF), (6, 0x1)] [] []) fun t => t.pc == 0x1004) &&
      (ran 0x8062F0E3 (st 0x3000 [(5, 0xFFFFFFFFFFFFFFFF), (6, 0x1)] [] []) fun t => t.pc == 0x2800)) = true := by decide +kernel

/-- The end states of the examples of R151 to R161. -/
theorem test_run_loads_stores :
    ((ran 0xFFF30283 (st 0x1000 [(6, 0x2001)] [] [(0x2000, 1, 0x80)]) fun t => t.getX 5 == 0xFFFFFFFFFFFFFF80 && t.pc == 0x1004) &&
      (ran 0x00131283 (st 0x1000 [(6, 0x2000)] [] [(0x2001, 2, 0x8001)]) fun t => t.getX 5 == 0xFFFFFFFFFFFF8001 && t.pc == 0x1004) &&
      (ran 0x00412503 (st 0x1000 [(2, 0x7000)] [] [(0x7004, 4, 0x80000000)]) fun t => t.getX 10 == 0xFFFFFFFF80000000 && t.pc == 0x1004) &&
      (ran 0x00813503 (st 0x1000 [(2, 0x7000)] [] [(0x7008, 8, 0x123456789ABCDEF)]) fun t => t.getX 10 == 0x123456789ABCDEF && t.pc == 0x1004) &&
      (ran 0x00034283 (st 0x1000 [(6, 0x2000)] [] [(0x2000, 1, 0x80)]) fun t => t.getX 5 == 0x80 && t.pc == 0x1004) &&
      (ran 0x00235283 (st 0x1000 [(6, 0x2000)] [] [(0x2002, 2, 0x8001)]) fun t => t.getX 5 == 0x8001 && t.pc == 0x1004) &&
      (ran 0x00416503 (st 0x1000 [(2, 0x7000)] [] [(0x7004, 4, 0x80000000)]) fun t => t.getX 10 == 0x80000000 && t.pc == 0x1004) &&
      (ran 0xFE530FA3 (st 0x1000 [(6, 0x2001), (5, 0x1234)] [] [(0x2000, 1, 0x0)]) fun t => loadLE t.mem 0x2000 1 == 0x34 && t.pc == 0x1004) &&
      (ran 0x00531023 (st 0x1000 [(6, 0x2000), (5, 0xABCD1234)] [] [(0x2000, 4, 0x0)]) fun t => loadLE t.mem 0x2000 4 == 0x1234 && t.pc == 0x1004) &&
      (ran 0x00A12223 (st 0x1000 [(2, 0x7000), (10, 0x1122334455667788)] [] [(0x7004, 8, 0x0)]) fun t => loadLE t.mem 0x7004 8 == 0x55667788 && t.pc == 0x1004) &&
      (ran 0x00113423 (st 0x1000 [(2, 0x7000), (1, 0x123456789ABCDEF)] [] [(0x7008, 8, 0x0)]) fun t => loadLE t.mem 0x7008 8 == 0x123456789ABCDEF && loadLE t.mem 0x7008 1 == 0xEF && t.pc == 0x1004)) = true := by decide +kernel

/-- The end states of the examples of R162 to R170. -/
theorem test_run_immediate_alu :
    ((ran 0xFFF30293 (st 0x1000 [(6, 0x0)] [] []) fun t => t.getX 5 == 0xFFFFFFFFFFFFFFFF && t.pc == 0x1004) &&
      (ran 0xFFF32293 (st 0x1000 [(6, 0x8000000000000000)] [] []) fun t => t.getX 5 == 0x1 && t.pc == 0x1004) &&
      (ran 0xFFF33293 (st 0x1000 [(6, 0x5)] [] []) fun t => t.getX 5 == 0x1 && t.pc == 0x1004) &&
      (ran 0xFFF34293 (st 0x1000 [(6, 0xFF00FF00FF00FF)] [] []) fun t => t.getX 5 == 0xFF00FF00FF00FF00 && t.pc == 0x1004) &&
      (ran 0x7FF36293 (st 0x1000 [(6, 0x8000000000000000)] [] []) fun t => t.getX 5 == 0x80000000000007FF && t.pc == 0x1004) &&
      (ran 0x0FF37293 (st 0x1000 [(6, 0x123456789ABCDEF0)] [] []) fun t => t.getX 5 == 0xF0 && t.pc == 0x1004) &&
      (ran 0x02051513 (st 0x1000 [(10, 0xFFFFFFFF)] [] []) fun t => t.getX 10 == 0xFFFFFFFF00000000 && t.pc == 0x1004) &&
      (ran 0x03F35293 (st 0x1000 [(6, 0x8000000000000000)] [] []) fun t => t.getX 5 == 0x1 && t.pc == 0x1004) &&
      (ran 0x43F35293 (st 0x1000 [(6, 0x8000000000000000)] [] []) fun t => t.getX 5 == 0xFFFFFFFFFFFFFFFF && t.pc == 0x1004)) = true := by decide +kernel

/-- The end states of the examples of R171 to R180. -/
theorem test_run_register_alu :
    ((ran 0x007302B3 (st 0x1000 [(6, 0xFFFFFFFFFFFFFFFF), (7, 0x2)] [] []) fun t => t.getX 5 == 0x1 && t.pc == 0x1004) &&
      (ran 0x407302B3 (st 0x1000 [(6, 0x0), (7, 0x1)] [] []) fun t => t.getX 5 == 0xFFFFFFFFFFFFFFFF && t.pc == 0x1004) &&
      (ran 0x007312B3 (st 0x1000 [(6, 0x1), (7, 0x7F)] [] []) fun t => t.getX 5 == 0x8000000000000000 && t.pc == 0x1004) &&
      (ran 0x007322B3 (st 0x1000 [(6, 0xFFFFFFFFFFFFFFFF), (7, 0x0)] [] []) fun t => t.getX 5 == 0x1 && t.pc == 0x1004) &&
      (ran 0x007332B3 (st 0x1000 [(6, 0xFFFFFFFFFFFFFFFF), (7, 0x0)] [] []) fun t => t.getX 5 == 0x0 && t.pc == 0x1004) &&
      (ran 0x007342B3 (st 0x1000 [(6, 0xFF00FF00FF00FF00), (7, 0xFF00FF00FF00FF0)] [] []) fun t => t.getX 5 == 0xF0F0F0F0F0F0F0F0 && t.pc == 0x1004) &&
      (ran 0x007352B3 (st 0x1000 [(6, 0x8000000000000000), (7, 0xFFFFFFFFFFFFFFC4)] [] []) fun t => t.getX 5 == 0x800000000000000 && t.pc == 0x1004) &&
      (ran 0x407352B3 (st 0x1000 [(6, 0x8000000000000000), (7, 0x4)] [] []) fun t => t.getX 5 == 0xF800000000000000 && t.pc == 0x1004) &&
      (ran 0x007362B3 (st 0x1000 [(6, 0xF0), (7, 0xF)] [] []) fun t => t.getX 5 == 0xFF && t.pc == 0x1004) &&
      (ran 0x007372B3 (st 0x1000 [(6, 0xFF), (7, 0xF)] [] []) fun t => t.getX 5 == 0xF && t.pc == 0x1004)) = true := by decide +kernel

/-- The end states of the examples of R181 to R189. -/
theorem test_run_word_alu :
    ((ran 0x0003029B (st 0x1000 [(6, 0x80000000)] [] []) fun t => t.getX 5 == 0xFFFFFFFF80000000 && t.pc == 0x1004) &&
      (ran 0x01F3129B (st 0x1000 [(6, 0xFFFFFFFF00000001)] [] []) fun t => t.getX 5 == 0xFFFFFFFF80000000 && t.pc == 0x1004) &&
      (ran 0x0003529B (st 0x1000 [(6, 0x80000000)] [] []) fun t => t.getX 5 == 0xFFFFFFFF80000000 && t.pc == 0x1004) &&
      (ran 0x4043529B (st 0x1000 [(6, 0x1234567880000000)] [] []) fun t => t.getX 5 == 0xFFFFFFFFF8000000 && t.pc == 0x1004) &&
      (ran 0x007302BB (st 0x1000 [(6, 0x7FFFFFFF), (7, 0x1)] [] []) fun t => t.getX 5 == 0xFFFFFFFF80000000 && t.pc == 0x1004) &&
      (ran 0x407302BB (st 0x1000 [(6, 0x80000000), (7, 0x1)] [] []) fun t => t.getX 5 == 0x7FFFFFFF && t.pc == 0x1004) &&
      (ran 0x007312BB (st 0x1000 [(6, 0x1), (7, 0x3F)] [] []) fun t => t.getX 5 == 0xFFFFFFFF80000000 && t.pc == 0x1004) &&
      (ran 0x007352BB (st 0x1000 [(6, 0xFFFFFFFF80000000), (7, 0x1F)] [] []) fun t => t.getX 5 == 0x1 && t.pc == 0x1004) &&
      (ran 0x407352BB (st 0x1000 [(6, 0x80000000), (7, 0x1F)] [] []) fun t => t.getX 5 == 0xFFFFFFFFFFFFFFFF && t.pc == 0x1004)) = true := by decide +kernel

/-- The end states of the examples of R201 to R213. -/
theorem test_run_muldiv :
    ((ran 0x027302B3 (st 0x1000 [(6, 0xFFFFFFFFFFFFFFFF), (7, 0xFFFFFFFFFFFFFFFF)] [] []) fun t => t.getX 5 == 0x1 && t.pc == 0x1004) &&
      (ran 0x027312B3 (st 0x1000 [(6, 0xFFFFFFFFFFFFFFFF), (7, 0xFFFFFFFFFFFFFFFF)] [] []) fun t => t.getX 5 == 0x0 && t.pc == 0x1004) &&
      (ran 0x027322B3 (st 0x1000 [(6, 0xFFFFFFFFFFFFFFFF), (7, 0xFFFFFFFFFFFFFFFF)] [] []) fun t => t.getX 5 == 0xFFFFFFFFFFFFFFFF && t.pc == 0x1004) &&
      (ran 0x027332B3 (st 0x1000 [(6, 0xFFFFFFFFFFFFFFFF), (7, 0xFFFFFFFFFFFFFFFF)] [] []) fun t => t.getX 5 == 0xFFFFFFFFFFFFFFFE && t.pc == 0x1004) &&
      (ran 0x027342B3 (st 0x1000 [(6, 0xFFFFFFFFFFFFFFF9), (7, 0x2)] [] []) fun t => t.getX 5 == 0xFFFFFFFFFFFFFFFD && t.pc == 0x1004) &&
      (ran 0x027352B3 (st 0x1000 [(6, 0x7), (7, 0x0)] [] []) fun t => t.getX 5 == 0xFFFFFFFFFFFFFFFF && t.pc == 0x1004) &&
      (ran 0x027362B3 (st 0x1000 [(6, 0xFFFFFFFFFFFFFFF9), (7, 0x2)] [] []) fun t => t.getX 5 == 0xFFFFFFFFFFFFFFFF && t.pc == 0x1004) &&
      (ran 0x027372B3 (st 0x1000 [(6, 0xFFFFFFFFFFFFFFFF), (7, 0xA)] [] []) fun t => t.getX 5 == 0x5 && t.pc == 0x1004) &&
      (ran 0x027302BB (st 0x1000 [(6, 0x100010000), (7, 0x8000)] [] []) fun t => t.getX 5 == 0xFFFFFFFF80000000 && t.pc == 0x1004) &&
      (ran 0x027342BB (st 0x1000 [(6, 0x80000000), (7, 0xFFFFFFFF)] [] []) fun t => t.getX 5 == 0xFFFFFFFF80000000 && t.pc == 0x1004) &&
      (ran 0x027352BB (st 0x1000 [(6, 0xFFFFFFFFFFFFFFFE), (7, 0x100000001)] [] []) fun t => t.getX 5 == 0xFFFFFFFFFFFFFFFE && t.pc == 0x1004) &&
      (ran 0x027362BB (st 0x1000 [(6, 0x1234567880000001), (7, 0x0)] [] []) fun t => t.getX 5 == 0xFFFFFFFF80000001 && t.pc == 0x1004) &&
      (ran 0x027372BB (st 0x1000 [(6, 0xFFFFFFFF), (7, 0x10)] [] []) fun t => t.getX 5 == 0xF && t.pc == 0x1004)) = true := by decide +kernel

/-- The end states of the examples of R222 to R232. -/
theorem test_run_atomics_word :
    ((ran 0x100522AF (st 0x1000 [(10, 0x8000)] [] [(0x8000, 4, 0x80000001)]) fun t => t.getX 5 == 0xFFFFFFFF80000001 && t.resv == some 0x8000 && t.pc == 0x1004) &&
      (ran 0x18B522AF ((st 0x1000 [(10, 0x8000), (11, 0x1122334455667788), (5, 0xAAAA)] [] [(0x8000, 8, 0x0)]).setResv (some 0x8000)) fun t => t.getX 5 == 0x0 && loadLE t.mem 0x8000 8 == 0x55667788 && t.resv == none && t.pc == 0x1004) &&
      (ran 0x08B522AF (st 0x1000 [(10, 0x8000), (11, 0xFFFFFFFF12345678)] [] [(0x8000, 4, 0x80000000)]) fun t => t.getX 5 == 0xFFFFFFFF80000000 && loadLE t.mem 0x8000 4 == 0x12345678 && t.pc == 0x1004) &&
      (ran 0x00B522AF (st 0x1000 [(10, 0x8000), (11, 0x3)] [] [(0x8000, 4, 0x5)]) fun t => t.getX 5 == 0x5 && loadLE t.mem 0x8000 4 == 0x8 && t.pc == 0x1004) &&
      (ran 0x20B522AF (st 0x1000 [(10, 0x8000), (11, 0xF0F0F0F0F0F0F0F)] [] [(0x8000, 4, 0xFF00FF00)]) fun t => t.getX 5 == 0xFFFFFFFFFF00FF00 && loadLE t.mem 0x8000 4 == 0xF00FF00F && t.pc == 0x1004) &&
      (ran 0x60B522AF (st 0x1000 [(10, 0x8000), (11, 0xF0F0F0F0F0F0F0F)] [] [(0x8000, 4, 0xFF00FF00)]) fun t => t.getX 5 == 0xFFFFFFFFFF00FF00 && loadLE t.mem 0x8000 4 == 0xF000F00 && t.pc == 0x1004) &&
      (ran 0x40B522AF (st 0x1000 [(10, 0x8000), (11, 0xF0F0F0F0F0F0F0F)] [] [(0x8000, 4, 0xFF00FF00)]) fun t => t.getX 5 == 0xFFFFFFFFFF00FF00 && loadLE t.mem 0x8000 4 == 0xFF0FFF0F && t.pc == 0x1004) &&
      (ran 0x80B522AF (st 0x1000 [(10, 0x8000), (11, 0x1)] [] [(0x8000, 4, 0x80000000)]) fun t => t.getX 5 == 0xFFFFFFFF80000000 && loadLE t.mem 0x8000 4 == 0x80000000 && t.pc == 0x1004) &&
      (ran 0xA0B522AF (st 0x1000 [(10, 0x8000), (11, 0x1)] [] [(0x8000, 4, 0x80000000)]) fun t => t.getX 5 == 0xFFFFFFFF80000000 && loadLE t.mem 0x8000 4 == 0x1 && t.pc == 0x1004) &&
      (ran 0xC0B522AF (st 0x1000 [(10, 0x8000), (11, 0x1)] [] [(0x8000, 4, 0x80000000)]) fun t => t.getX 5 == 0xFFFFFFFF80000000 && loadLE t.mem 0x8000 4 == 0x1 && t.pc == 0x1004) &&
      (ran 0xE0B522AF (st 0x1000 [(10, 0x8000), (11, 0x1)] [] [(0x8000, 4, 0x80000000)]) fun t => t.getX 5 == 0xFFFFFFFF80000000 && loadLE t.mem 0x8000 4 == 0x80000000 && t.pc == 0x1004)) = true := by decide +kernel

/-- The end states of the examples of R233 to R243. -/
theorem test_run_atomics_double :
    ((ran 0x100532AF (st 0x1000 [(10, 0x8000)] [] [(0x8000, 8, 0x8000000000000001)]) fun t => t.getX 5 == 0x8000000000000001 && t.resv == some 0x8000 && t.pc == 0x1004) &&
      (ran 0x18B532AF ((st 0x1000 [(10, 0x8000), (11, 0x1122334455667788), (5, 0xAAAA)] [] [(0x8000, 8, 0x0)]).setResv (some 0x8000)) fun t => t.getX 5 == 0x0 && loadLE t.mem 0x8000 8 == 0x1122334455667788 && t.resv == none && t.pc == 0x1004) &&
      (ran 0x08B532AF (st 0x1000 [(10, 0x8000), (11, 0xFFFFFFFF12345678)] [] [(0x8000, 8, 0x8000000000000000)]) fun t => t.getX 5 == 0x8000000000000000 && loadLE t.mem 0x8000 8 == 0xFFFFFFFF12345678 && t.pc == 0x1004) &&
      (ran 0x00B532AF (st 0x1000 [(10, 0x8000), (11, 0xF0F0F0F0F0F0F0F)] [] [(0x8000, 8, 0xFF00FF00FF00FF00)]) fun t => t.getX 5 == 0xFF00FF00FF00FF00 && loadLE t.mem 0x8000 8 == 0xE100E100E100E0F && t.pc == 0x1004) &&
      (ran 0x20B532AF (st 0x1000 [(10, 0x8000), (11, 0xF0F0F0F0F0F0F0F)] [] [(0x8000, 8, 0xFF00FF00FF00FF00)]) fun t => t.getX 5 == 0xFF00FF00FF00FF00 && loadLE t.mem 0x8000 8 == 0xF00FF00FF00FF00F && t.pc == 0x1004) &&
      (ran 0x60B532AF (st 0x1000 [(10, 0x8000), (11, 0xF0F0F0F0F0F0F0F)] [] [(0x8000, 8, 0xFF00FF00FF00FF00)]) fun t => t.getX 5 == 0xFF00FF00FF00FF00 && loadLE t.mem 0x8000 8 == 0xF000F000F000F00 && t.pc == 0x1004) &&
      (ran 0x40B532AF (st 0x1000 [(10, 0x8000), (11, 0xF0F0F0F0F0F0F0F)] [] [(0x8000, 8, 0xFF00FF00FF00FF00)]) fun t => t.getX 5 == 0xFF00FF00FF00FF00 && loadLE t.mem 0x8000 8 == 0xFF0FFF0FFF0FFF0F && t.pc == 0x1004) &&
      (ran 0x80B532AF (st 0x1000 [(10, 0x8000), (11, 0x1)] [] [(0x8000, 8, 0x8000000000000000)]) fun t => t.getX 5 == 0x8000000000000000 && loadLE t.mem 0x8000 8 == 0x8000000000000000 && t.pc == 0x1004) &&
      (ran 0xA0B532AF (st 0x1000 [(10, 0x8000), (11, 0x1)] [] [(0x8000, 8, 0x8000000000000000)]) fun t => t.getX 5 == 0x8000000000000000 && loadLE t.mem 0x8000 8 == 0x1 && t.pc == 0x1004) &&
      (ran 0xC0B532AF (st 0x1000 [(10, 0x8000), (11, 0x1)] [] [(0x8000, 8, 0x8000000000000000)]) fun t => t.getX 5 == 0x8000000000000000 && loadLE t.mem 0x8000 8 == 0x1 && t.pc == 0x1004) &&
      (ran 0xE0B532AF (st 0x1000 [(10, 0x8000), (11, 0x1)] [] [(0x8000, 8, 0x8000000000000000)]) fun t => t.getX 5 == 0x8000000000000000 && loadLE t.mem 0x8000 8 == 0x8000000000000000 && t.pc == 0x1004)) = true := by decide +kernel

/-- The end states of the examples of R253 to R258. -/
theorem test_run_float_moves_and_fused :
    ((ran 0x00852087 (st 0x1000 [(10, 0x8000)] [(1, 0x0)] [(0x8008, 4, 0x3F800000)]) fun t => t.getF 1 == 0xFFFFFFFF3F800000 && t.pc == 0x1004) &&
      (ran 0xFE252E27 (st 0x1000 [(10, 0x8004)] [(2, 0x140490FDB)] [(0x8000, 4, 0x0)]) fun t => loadLE t.mem 0x8000 4 == 0x40490FDB && t.pc == 0x1004) &&
      (ran 0x203100C3 (st 0x1000 [] [(2, 0xFFFFFFFF3F800800), (3, 0xFFFFFFFF3F800800), (4, 0xFFFFFFFFBF801000)] []) fun t => t.getF 1 == 0xFFFFFFFF33800000 && t.pc == 0x1004) &&
      (ran 0x203100C7 (st 0x1000 [] [(2, 0xFFFFFFFF3F800800), (3, 0xFFFFFFFF3F800800), (4, 0xFFFFFFFF3F801000)] []) fun t => t.getF 1 == 0xFFFFFFFF33800000 && t.pc == 0x1004) &&
      (ran 0x203100CB (st 0x1000 [] [(2, 0xFFFFFFFF40000000), (3, 0xFFFFFFFF40400000), (4, 0xFFFFFFFF41200000)] []) fun t => t.getF 1 == 0xFFFFFFFF40800000 && t.pc == 0x1004) &&
      (ran 0x203100CF (st 0x1000 [] [(2, 0xFFFFFFFF40000000), (3, 0xFFFFFFFF40400000), (4, 0xFFFFFFFF3F800000)] []) fun t => t.getF 1 == 0xFFFFFFFFC0E00000 && t.pc == 0x1004)) = true := by decide +kernel

/-- The end states of the examples of R259 to R268. -/
theorem test_run_float_arith :
    ((ran 0x003130D3 (st 0x1000 [] [(2, 0xFFFFFFFF3F800000), (3, 0xFFFFFFFF33800000)] []) fun t => t.getF 1 == 0xFFFFFFFF3F800001 && t.pc == 0x1004) &&
      (ran 0x083100D3 (st 0x1000 [] [(2, 0xFFFFFFFF7F800000), (3, 0xFFFFFFFF7F800000)] []) fun t => t.getF 1 == 0xFFFFFFFF7FC00000 && t.pc == 0x1004) &&
      (ran 0x103110D3 (st 0x1000 [] [(2, 0xFFFFFFFF7F7FFFFF), (3, 0xFFFFFFFF40000000)] []) fun t => t.getF 1 == 0xFFFFFFFF7F7FFFFF && t.pc == 0x1004) &&
      (ran 0x183100D3 (st 0x1000 [] [(2, 0xFFFFFFFF3F800000), (3, 0xFFFFFFFF40400000)] []) fun t => t.getF 1 == 0xFFFFFFFF3EAAAAAB && t.pc == 0x1004) &&
      (ran 0x580100D3 (st 0x1000 [] [(2, 0xFFFFFFFF40000000)] []) fun t => t.getF 1 == 0xFFFFFFFF3FB504F3 && t.pc == 0x1004) &&
      (ran 0x203100D3 (st 0x1000 [] [(2, 0xFFFFFFFF3F800000), (3, 0xFFFFFFFFC0000000)] []) fun t => t.getF 1 == 0xFFFFFFFFBF800000 && t.pc == 0x1004) &&
      (ran 0x202110D3 (st 0x1000 [] [(2, 0xFFFFFFFF3F800000)] []) fun t => t.getF 1 == 0xFFFFFFFFBF800000 && t.pc == 0x1004) &&
      (ran 0x202120D3 (st 0x1000 [] [(2, 0xFFFFFFFFBF800000)] []) fun t => t.getF 1 == 0xFFFFFFFF3F800000 && t.pc == 0x1004) &&
      (ran 0x283100D3 (st 0x1000 [] [(2, 0xFFFFFFFF00000000), (3, 0xFFFFFFFF80000000)] []) fun t => t.getF 1 == 0xFFFFFFFF80000000 && t.pc == 0x1004) &&
      (ran 0x283110D3 (st 0x1000 [] [(2, 0x3F800000), (3, 0xFFFFFFFF3F800000)] []) fun t => t.getF 1 == 0xFFFFFFFF3F800000 && t.pc == 0x1004)) = true := by decide +kernel

/-- The end states of the examples of R269 to R282. -/
theorem test_run_float_convert_compare :
    ((ran 0xC00112D3 (st 0x1000 [] [(2, 0xFFFFFFFFBFC00000)] []) fun t => t.getX 5 == 0xFFFFFFFFFFFFFFFF && t.pc == 0x1004) &&
      (ran 0xC01102D3 (st 0x1000 [] [(2, 0xFFFFFFFF4F6E6B28)] []) fun t => t.getX 5 == 0xFFFFFFFFEE6B2800 && t.pc == 0x1004) &&
      (ran 0xE00102D3 (st 0x1000 [] [(2, 0xBF800000)] []) fun t => t.getX 5 == 0xFFFFFFFFBF800000 && t.pc == 0x1004) &&
      (ran 0xA03122D3 (st 0x1000 [] [(2, 0xFFFFFFFF00000000), (3, 0xFFFFFFFF80000000)] []) fun t => t.getX 5 == 0x1 && t.pc == 0x1004) &&
      (ran 0xA03112D3 (st 0x1000 [] [(2, 0xFFFFFFFF3F800000), (3, 0xFFFFFFFF7FC00000)] []) fun t => t.getX 5 == 0x0 && t.pc == 0x1004) &&
      (ran 0xA03102D3 (st 0x1000 [] [(2, 0xFFFFFFFF3F800000), (3, 0xFFFFFFFF3F800000)] []) fun t => t.getX 5 == 0x1 && t.pc == 0x1004) &&
      (ran 0xE00112D3 (st 0x1000 [] [(2, 0x3F800000)] []) fun t => t.getX 5 == 0x200 && t.pc == 0x1004) &&
      (ran 0xD00300D3 (st 0x1000 [(6, 0xFFFFFFFF)] [] []) fun t => t.getF 1 == 0xFFFFFFFFBF800000 && t.pc == 0x1004) &&
      (ran 0xD01300D3 (st 0x1000 [(6, 0xFFFFFFFFFFFFFFFF)] [] []) fun t => t.getF 1 == 0xFFFFFFFF4F800000 && t.pc == 0x1004) &&
      (ran 0xF00300D3 (st 0x1000 [(6, 0x123456783F800000)] [] []) fun t => t.getF 1 == 0xFFFFFFFF3F800000 && t.pc == 0x1004) &&
      (ran 0xC02102D3 (st 0x1000 [] [(2, 0xFFFFFFFF7F800000)] []) fun t => t.getX 5 == 0x7FFFFFFFFFFFFFFF && t.pc == 0x1004) &&
      (ran 0xC03122D3 (st 0x1000 [] [(2, 0xFFFFFFFFBF000000)] []) fun t => t.getX 5 == 0x0 && t.pc == 0x1004) &&
      (ran 0xD02300D3 (st 0x1000 [(6, 0x1000001)] [] []) fun t => t.getF 1 == 0xFFFFFFFF4B800000 && t.pc == 0x1004) &&
      (ran 0xD03310D3 (st 0x1000 [(6, 0xFFFFFFFFFFFFFFFF)] [] []) fun t => t.getF 1 == 0xFFFFFFFF5F7FFFFF && t.pc == 0x1004)) = true := by decide +kernel

/-- The end states of the examples of R305 to R309. -/
theorem test_run_compressed_q0 :
    ((ran 0x0800 (st 0x1000 [(2, 0x7000)] [] []) fun t => t.getX 8 == 0x7010 && t.pc == 0x1002) &&
      (ran 0x4544 (st 0x1000 [(10, 0x8000)] [] [(0x800C, 4, 0x80000001)]) fun t => t.getX 9 == 0xFFFFFFFF80000001 && t.pc == 0x1002) &&
      (ran 0x6D04 (st 0x1000 [(10, 0x8000)] [] [(0x8018, 8, 0x8000000000000001)]) fun t => t.getX 9 == 0x8000000000000001 && t.pc == 0x1002) &&
      (ran 0xC544 (st 0x1000 [(10, 0x8000), (9, 0x1122334455667788)] [] [(0x800C, 8, 0x0)]) fun t => loadLE t.mem 0x800C 8 == 0x55667788 && t.pc == 0x1002) &&
      (ran 0xED04 (st 0x1000 [(10, 0x8000), (9, 0x1122334455667788)] [] [(0x8018, 8, 0x0)]) fun t => loadLE t.mem 0x8018 8 == 0x1122334455667788 && t.pc == 0x1002)) = true := by decide +kernel

/-- The end states of the examples of R310 to R327. -/
theorem test_run_compressed_q1 :
    ((ran 0x0001 (st 0x1000 [] [] []) fun t => t.pc == 0x1002) &&
      (ran 0x157D (st 0x1000 [(10, 0x0)] [] []) fun t => t.getX 10 == 0xFFFFFFFFFFFFFFFF && t.pc == 0x1002) &&
      (ran 0x0501 (st 0x1000 [(10, 0x5)] [] []) fun t => t.pc == 0x1002) &&
      (ran 0x2501 (st 0x1000 [(10, 0x80000000)] [] []) fun t => t.getX 10 == 0xFFFFFFFF80000000 && t.pc == 0x1002) &&
      (ran 0x4505 (st 0x1000 [(10, 0xFFFF)] [] []) fun t => t.getX 10 == 0x1 && t.pc == 0x1002) &&
      (ran 0x7139 (st 0x1000 [(2, 0x7000)] [] []) fun t => t.getX 2 == 0x6FC0 && t.pc == 0x1002) &&
      (ran 0x757D (st 0x1000 [] [] []) fun t => t.getX 10 == 0xFFFFFFFFFFFFF000 && t.pc == 0x1002) &&
      (ran 0x907D (st 0x1000 [(8, 0x8000000000000000)] [] []) fun t => t.getX 8 == 0x1 && t.pc == 0x1002) &&
      (ran 0x947D (st 0x1000 [(8, 0x8000000000000000)] [] []) fun t => t.getX 8 == 0xFFFFFFFFFFFFFFFF && t.pc == 0x1002) &&
      (ran 0x9841 (st 0x1000 [(8, 0x12345678)] [] []) fun t => t.getX 8 == 0x12345670 && t.pc == 0x1002) &&
      (ran 0x8C05 (st 0x1000 [(8, 0x5), (9, 0x7)] [] []) fun t => t.getX 8 == 0xFFFFFFFFFFFFFFFE && t.pc == 0x1002) &&
      (ran 0x8C25 (st 0x1000 [(8, 0xFF), (9, 0xF)] [] []) fun t => t.getX 8 == 0xF0 && t.pc == 0x1002) &&
      (ran 0x8C45 (st 0x1000 [(8, 0xF0), (9, 0xF)] [] []) fun t => t.getX 8 == 0xFF && t.pc == 0x1002) &&
      (ran 0x8C65 (st 0x1000 [(8, 0xFF), (9, 0xF)] [] []) fun t => t.getX 8 == 0xF && t.pc == 0x1002) &&
      (ran 0x9C05 (st 0x1000 [(8, 0x80000000), (9, 0x1)] [] []) fun t => t.getX 8 == 0x7FFFFFFF && t.pc == 0x1002) &&
      (ran 0x9C25 (st 0x1000 [(8, 0x7FFFFFFF), (9, 0x1)] [] []) fun t => t.getX 8 == 0xFFFFFFFF80000000 && t.pc == 0x1002) &&
      (ran 0xBFF5 (st 0x1000 [] [] []) fun t => t.pc == 0xFFC) &&
      (ran 0xC019 (st 0x1000 [(8, 0x0)] [] []) fun t => t.pc == 0x1006) &&
      (ran 0xE019 (st 0x1000 [(8, 0x0)] [] []) fun t => t.pc == 0x1002)) = true := by decide +kernel

/-- The end states of the examples of R328 to R337. -/
theorem test_run_compressed_q2 :
    ((ran 0x1502 (st 0x1000 [(10, 0x1)] [] []) fun t => t.getX 10 == 0x100000000 && t.pc == 0x1002) &&
      (ran 0x4532 (st 0x1000 [(2, 0x7000)] [] [(0x700C, 4, 0xFFFFFFFE)]) fun t => t.getX 10 == 0xFFFFFFFFFFFFFFFE && t.pc == 0x1002) &&
      (ran 0x60A2 (st 0x1000 [(2, 0x7000)] [] [(0x7008, 8, 0x1234)]) fun t => t.getX 1 == 0x1234 && t.pc == 0x1002) &&
      (ran 0x8082 (st 0x1000 [(1, 0x2001)] [] []) fun t => t.pc == 0x2000) &&
      (ran 0x852E (st 0x1000 [(11, 0x1234), (10, 0x9)] [] []) fun t => t.getX 10 == 0x1234 && t.pc == 0x1002) &&
      (ran 0x9082 (st 0x1000 [(1, 0x2000)] [] []) fun t => t.getX 1 == 0x1002 && t.pc == 0x2000) &&
      (ran 0x952E (st 0x1000 [(10, 0x3), (11, 0x4)] [] []) fun t => t.getX 10 == 0x7 && t.pc == 0x1002) &&
      (ran 0xC22A (st 0x1000 [(2, 0x7000), (10, 0xAABBCCDD11223344)] [] [(0x7004, 8, 0x0)]) fun t => loadLE t.mem 0x7004 8 == 0x11223344 && t.pc == 0x1002) &&
      (ran 0xE406 (st 0x1000 [(2, 0x7000), (1, 0x1122334455667788)] [] [(0x7008, 8, 0x0)]) fun t => loadLE t.mem 0x7008 8 == 0x1122334455667788 && t.pc == 0x1002)) = true := by decide +kernel

/-- DEBUG_TRAP, DECODE_FAILURE and two EXECUTION_FAILUREs of 45_sentinels.md and 60_exceptions.md R367. -/
theorem test_stops :
    (stops 0x00100073 (st 0x1000 [] [] []) .debugTrap && stops 0x9002 (st 0x1000 [] [] []) .debugTrap &&
      stops 0x0000 (st 0x1000 [] [] []) .decodeFailure && stops 0x4002 (st 0x1000 [] [] []) .decodeFailure &&
      stops 0x0FF0000F (st 0x1000 [] [] []) .decodeFailure &&
      stops 0x00B522AF (withFacade (st 0x1000 [(10, 0x8001)] [] []) [.readMem 4 0 0xFFFFFFFFFFFFFFFF])
        (.executionFailure .misalignedAtomic) &&
      stops 0x003150D3 (withFacade (st 0x1000 [] [] []) [.readF 2]) (.executionFailure .invalidRoundingMode)) = true := by
  decide +kernel

/-- Hints and NOP advance pc by 2 (45_sentinels.md R354, R355). -/
theorem test_hints :
    (ran 0x0501 (st 0x1000 [(10, 5)] [] []) (fun t => t == st 0x1002 [(10, 5)] [] []) &&
      ran 0x8016 (st 0x1000 [(5, 5)] [] []) (fun t => t == st 0x1002 [(5, 5)] [] []) &&
      ran 0x0001 (st 0x1000 [] [] []) (fun t => t == st 0x1002 [] [] [])) = true := by decide +kernel

/-- The mixed-width example of 20_memory.md R53. -/
theorem test_mixed_width :
    (loadLE (storeLE [] 0x8000 0x11223344 4) 0x8000 1, loadLE (storeLE [] 0x8000 0x11223344 4) 0x8001 2,
      loadLE (storeLE [] 0x8000 0x11223344 4) 0x8003 1) = (0x44, 0x2233, 0x11) := by decide

/-- A misaligned access at the top of the address space wraps (20_memory.md R58). -/
theorem test_wrap : (storeLE [] 0xFFFFFFFFFFFFFFFF 0x1122 2).read 0 = 0x11 := by decide

/-- `decodeTableWord` and `withFetchWord` on one full-width and one compressed row. -/
theorem test_placed :
    (decodeTableWord 32 0x007302B3 == some (.add 5 6 7) && decodeTableWord 16 0x952E == some (.cAdd 10 11) &&
      match step (State.reset.withFetchWord 32 0x007302B3) with
      | .next t => t == (State.reset.withFetchWord 32 0x007302B3).withPc 0x1004
      | _ => false) = true := by decide +kernel

/-! ### Witnesses: states and operands that meet the hypotheses of each statement -/

theorem reset_serves (as : List Access) : Serves State.reset as := fun _ _ => rfl
theorem reset_servesX (r : Reg) : ServesX State.reset r := Or.inr rfl
theorem reset_resv_serves (as : List Access) (o : Option Word) : Serves (State.reset.setResv o) as := fun _ _ => rfl

/-- A state whose next instruction is ADD x5, x6, x7. -/
def atAdd : State := State.reset.withFetchWord 32 0x007302B3

theorem witness_DecodeOfEncode : WellFormed (.cAdd 10 11) = true := by decide
theorem witness_EncodeOfDecode : decode 0x952E = .ok (.cAdd 10 11) := by decide
theorem witness_OverlappingPairs :
    [(120, 121, 0x0001#32), (124, 125, 0x6101#32), (141, 142, 0x8002#32), (143, 144, 0x9002#32), (143, 145, 0x9002#32),
      (144, 145, 0x9002#32)].all (fun p => p.1 < p.2.1 && (patternTable[p.1]?).map (·.hits p.2.2) == some true &&
        (patternTable[p.2.1]?).map (·.hits p.2.2) == some true) = true := by decide
theorem witness_UpperHalfOfParcelIgnored :
    (0x12340001#32).extractLsb 1 0 ≠ 0b11#2 ∧ (0x12340001#32).extractLsb 15 0 = (0x00000001#32).extractLsb 15 0 := by decide
theorem witness_BreakpointsTrap : exec .ebreak State.reset = .fault .debugTrap ∧
    (0xABCD9002#32).extractLsb 15 0 = 0x9002#16 ∧ (decodeBlock 0xABCD9002).pattern = some 143 :=
  ⟨rfl, by decide, by decide +kernel⟩
theorem witness_UnusedOpcodesInvalid :
    [0x0FF0000F#32, 0x0000000B#32, 0xFFFFFFFF#32, 0x00000073#32].all (fun w =>
      w.extractLsb 1 0 == 0b11#2 && w != 0x00100073#32 &&
      (decodeBlock w).inst == .invalid w && (decodeBlock w).pattern == none) = true := by decide
theorem witness_SentinelForms :
    [(Instr.cLui 1 0, RISCVInst.reserved 7), (.cJr 0, .reserved 7), (.cAddi 0 1, .hint 7), (.cSlli 0 0, .hint 7),
      (.cNop, .nop 7), (.ebreak, .ebreak 7), (.cEbreak, .ebreak 7)].all (fun p =>
        WellFormed p.1 && p.1.variant 7 == p.2) = true := by decide
theorem witness_CompressedEquivalence :
    [(Instr.cAdd 10 11, Instr.add 10 10 11), (.cJ 1, .jal 0 1), (.cJalr 1, .jalr 1 1 0),
      (.cBeqz 0 3, .beq 8 0 3)].all (fun p => WellFormed p.1 && p.1.fullWidth == some p.2) = true := by decide
theorem witness_StepRunsDecodedInstruction :
    WellFormed (.add 5 6 7) = true ∧ PcEven atAdd ∧
    (∀ k b, (encodeBytes (.add 5 6 7))[k]? = some b → atAdd.byteAt (atAdd.pc + BitVec.ofNat 64 k) = b) ∧
    atAdd.refuses (.readMem 2 atAdd.pc) = false ∧ atAdd.refuses (.readMem 2 (atAdd.pc + 2)) = false := by
  refine ⟨by decide, by unfold PcEven; decide, ?_, rfl, rfl⟩
  have h : encodeBytes (.add 5 6 7) = [0xB3, 0x02, 0x73, 0x00] := by decide
  intro k b hk
  rw [h] at hk
  match k, hk with
  | 0, hk | 1, hk | 2, hk | 3, hk =>
    simp only [List.getElem?_cons_zero, List.getElem?_cons_succ, Option.some.injEq] at hk
    subst hk; decide
theorem witness_FetchReadsParcels :
    PcEven State.reset ∧ (withFacade State.reset [.readMem 2 0x1000 0x1000]).refuses (.readMem 2 0x1000) = true ∧
    (State.reset.byteAt 0x1001 ++ State.reset.byteAt 0x1000).extractLsb 1 0 ≠ 0b11#2 ∧
    (atAdd.byteAt 0x1001 ++ atAdd.byteAt 0x1000).extractLsb 1 0 = 0b11#2 ∧
    (withFacade atAdd [.readMem 2 0x1002 0x1002]).refuses (.readMem 2 0x1002) = true ∧
    (withFacade atAdd [.readMem 2 0x1002 0x1002]).refuses (.readMem 2 0x1000) = false ∧
    fetchWord (State.reset.withFetchWord 32 0xFFFFFFFF) = some 0xFFFFFFFF ∧
    decode 0xFFFFFFFF = .error (.invalid 0xFFFFFFFF) := by
  refine ⟨by unfold PcEven; decide, ?_⟩
  decide
theorem witness_StoredInstructionRunsNext :
    (let s := st 0x1000 [(1, 0x1004), (2, 0x007302B3)] [] []
     PcEven s ∧ (Instr.sw 1 2 0).store s = some (0x1004, 4) ∧ (∃ t, exec (.sw 1 2 0) s = .next t ∧ t.pc = 0x1004) ∧
       (List.range 4).map (fun l => ((s.getX 2) >>> (8 * l)).setWidth 8) = encodeBytes (.add 5 6 7)) ∧
    (let s := st 0x1000 [(8, 0x1002), (9, 0x952E)] [] []
     PcEven s ∧ (Instr.cSw 0 1 0).store s = some (0x1002, 4) ∧ (∃ t, exec (.cSw 0 1 0) s = .next t ∧ t.pc = 0x1002) ∧
       (List.range 2).map (fun l => ((s.getX 9) >>> (8 * l)).setWidth 8) = encodeBytes (.cAdd 10 11)) := by
  refine ⟨⟨by unfold PcEven; decide, by decide, ⟨_, rfl, rfl⟩, by decide⟩,
    ⟨by unfold PcEven; decide, by decide, ⟨_, rfl, rfl⟩, by decide⟩⟩
theorem witness_StepKeepsInvariant : Inv atAdd ∧ ∃ t, step atAdd = .next t :=
  ⟨⟨by decide, by unfold PcEven; decide⟩, atAdd.withPc 0x1004, rfl⟩
theorem witness_PcStaysEven : PcEven State.reset ∧ ∃ t, exec (.jalr 1 2 3) State.reset = .next t :=
  ⟨by unfold PcEven; decide, _, rfl⟩
theorem witness_RunConstants : HostedRun State.reset ((HostMove.setPc 8).apply State.reset) := .move _ (.refl _)
theorem witness_HostMoveEffects : State.reset.mem.wf = true := by decide
theorem witness_SentinelSteps :
    [(0x2000, RISCVInst.invalid 0x2000), (0x0000, .reserved 0), (0x9002, .ebreak 0x9002), (0x0501, .hint 0x0501),
      (0x0001, .nop 1)].all (fun p => (decodeAt (State.reset.withFetchWord 16 p.1)).map (·.inst) == some p.2) = true := by
  decide +kernel
theorem witness_CausesOfStopping :
    exec (.lw 5 6 0) (withFacade State.reset [.readMem 4 0 0]) = .fault (.executionFailure .memRead) ∧
    (Instr.lw 5 6 0).load (withFacade State.reset [.readMem 4 0 0]) = some (0, 4) ∧
    exec (.cMv 5 6) (withFacade State.reset [.readX 6]) = .fault (.executionFailure .regRead) ∧
    (Instr.cMv 5 6).xSources = [0, 6] ∧
    exec (.cJ 0) (withFacade State.reset [.readPc]) = .fault (.executionFailure .regRead) ∧ (Instr.cJ 0).readsPc = true :=
  ⟨rfl, by decide, rfl, by decide, rfl, by decide⟩
theorem witness_FailurePriority :
    (Instr.faddS 1 2 3 0b101).roundingCode = some 0b101 ∧ resolveRm State.reset.frmDyn 0b101 = none := by decide
theorem witness_NaNBoxing : State.reset.refuses (.readF 1) = false ∧ State.reset.refuses (.writeF 1) = false := ⟨rfl, rfl⟩
theorem witness_MemReadIsLittleEndian : [1, 2, 4, 8].all (fun n => n ∈ [1, 2, 4, 8]) = true := by decide
theorem witness_MemWriteChangesItsBytes : (8 : Nat) ∈ [1, 2, 4, 8] := by decide
theorem witness_MemoryCanonical : Memory.wf [] = true ∧ Memory.wf [(0, 1), (0xFFFFFFFFFFFFFFFF, 255)] = true := by decide
theorem witness_RegisterFrame : ∃ t, exec (.cAdd 10 11) State.reset = .next t := ⟨_, rfl⟩
theorem witness_MemoryFrame : (∃ t, exec (.cSwsp 10 1) State.reset = .next t) ∧
    (Instr.cSwsp 10 1).store State.reset = some (4, 4) ∧
    (∃ t, exec (.lw 10 11 0) State.reset = .next t) ∧ (Instr.lw 10 11 0).store State.reset = none :=
  ⟨⟨_, rfl⟩, by decide, ⟨_, rfl⟩, by decide⟩
theorem witness_PcAdvancesByWidth : (∃ t, exec (.bne 1 2 8) State.reset = .next t) ∧
    (Instr.bne 1 2 8).takes State.reset = false := ⟨⟨_, rfl⟩, by decide⟩
theorem witness_ReservationProtocol :
    (∃ t, exec (.lrW 5 10 0) State.reset = .next t) ∧ (∃ t, exec (.scW 5 10 11 0) State.reset = .next t) ∧
    State.reset.resv ≠ some (State.reset.getX 10) ∧
    (∃ t, exec (.scD 5 10 11 0) (State.reset.setResv (some 0)) = .next t) ∧
    (State.reset.setResv (some 0)).resv = some ((State.reset.setResv (some 0)).getX 10) :=
  ⟨⟨_, rfl⟩, ⟨_, rfl⟩, by decide, ⟨_, rfl⟩, by decide⟩
theorem witness_RegisterAluResults : Serves State.reset [.readX 6, .readX 7, .writePc] ∧ ServesX State.reset 5 :=
  ⟨reset_serves _, reset_servesX _⟩
theorem witness_ImmediateAluResults : Serves State.reset [.readX 6, .writePc] ∧ ServesX State.reset 5 :=
  ⟨reset_serves _, reset_servesX _⟩
theorem witness_WordAluResults : Serves State.reset [.readX 6, .readX 7, .writePc] ∧ ServesX State.reset 0 :=
  ⟨reset_serves _, Or.inl rfl⟩
theorem witness_UpperImmediatesAndJumps :
    Serves State.reset [.readX 6, .readPc, .writePc] ∧ ServesX State.reset 5 := ⟨reset_serves _, reset_servesX _⟩
theorem witness_BranchResults : Serves State.reset [.readX 6, .readX 7, .readPc, .writePc] := reset_serves _
theorem witness_LoadResults : Serves State.reset [.readX 6, .writePc] ∧ ServesX State.reset 5 ∧
    ∀ n a, State.reset.refuses (.readMem n a) = false := ⟨reset_serves _, reset_servesX _, fun _ _ => rfl⟩
theorem witness_StoreResults (a : Word) : Serves State.reset [.readX 6, .readX 5, .writeMem 1 a, .writePc] ∧
    Serves State.reset [.readX 6, .readF 5, .writeMem 4 a, .writePc] := ⟨reset_serves _, reset_serves _⟩
theorem witness_MultiplyResults : Serves State.reset [.readX 6, .readX 7, .writePc] ∧ ServesX State.reset 5 :=
  ⟨reset_serves _, reset_servesX _⟩
theorem witness_DivideResults : Serves State.reset [.readX 6, .readX 7, .writePc] ∧ ServesX State.reset 5 :=
  ⟨reset_serves _, reset_servesX _⟩
theorem witness_DivisionLaw :
    (∃ t u, exec (.div 5 6 7) (st 0 [(6, 7), (7, 2)] [] []) = .next t ∧ exec (.rem 5 6 7) (st 0 [(6, 7), (7, 2)] [] []) = .next u) ∧
    (∃ t u, exec (.divu 5 6 7) State.reset = .next t ∧ exec (.remu 5 6 7) State.reset = .next u) ∧
    (∃ t, exec (.div 5 6 7) (st 0 [(6, BitVec.intMin 64), (7, -1)] [] []) = .next t) ∧
    (∃ t u, exec (.divw 5 6 7) (st 0 [(6, 0x80000000), (7, -1)] [] []) = .next t ∧
      exec (.remw 5 6 7) (st 0 [(6, 0x80000000), (7, -1)] [] []) = .next u) ∧
    (∃ t u, exec (.divuw 5 6 7) (st 0 [(6, 0xFFFFFFFF), (7, 1)] [] []) = .next t ∧
      exec (.remuw 5 6 7) (st 0 [(6, 0xFFFFFFFF), (7, 1)] [] []) = .next u) :=
  ⟨⟨_, _, rfl, rfl⟩, ⟨_, _, rfl, rfl⟩, ⟨_, rfl⟩, ⟨_, _, rfl, rfl⟩, ⟨_, _, rfl, rfl⟩⟩
theorem witness_ReservedPairResults :
    Serves State.reset [.readX 10, .writePc] ∧ ServesX State.reset 5 ∧ (State.reset.getX 10).toNat % 8 = 0 ∧
    State.reset.refuses (.readMem 8 0) = false ∧ State.reset.resv ≠ some (State.reset.getX 10) ∧
    Serves (State.reset.setResv (some 0)) [.readX 10, .writeMem 8 0, .writePc] ∧
    (State.reset.setResv (some 0)).resv = some ((State.reset.setResv (some 0)).getX 10) :=
  ⟨reset_serves _, reset_servesX _, by decide, rfl, by decide, reset_resv_serves _ _, by decide⟩
theorem witness_AmoResults :
    Serves State.reset [.readX 10, .readX 11, .readMem 4 0, .writeMem 4 0, .writePc] ∧ ServesX State.reset 5 ∧
    (State.reset.getX 10).toNat % 4 = 0 := ⟨reset_serves _, reset_servesX _, by decide⟩
theorem witness_MisalignedAtomicsFail :
    (Instr.scD 5 10 11 0).atomic = some (10, 8) ∧ (∀ r, (st 0 [(10, 4)] [] []).refuses (.readX r) = false) ∧
    ((st 0 [(10, 4)] [] []).getX 10).toNat % 8 ≠ 0 := ⟨by decide, fun _ => rfl, by decide⟩
theorem witness_FloatMoveResults : State.reset.refuses .writePc = false ∧
    Serves State.reset [.readX 10, .readMem 4 8, .writeF 1] ∧ State.reset.refuses (.readF 1) = false ∧ ServesX State.reset 5 :=
  ⟨rfl, reset_serves _, rfl, reset_servesX _⟩
theorem witness_FloatArithmeticResults :
    Serves State.reset [.readF 2, .readF 3, .readF 4, .writeF 1, .writePc] ∧ resolveRm State.reset.frmDyn 0b111 = some .rne :=
  ⟨reset_serves _, by decide⟩
theorem witness_FloatSelectResults : Serves State.reset [.readF 2, .readF 3, .writePc] ∧
    State.reset.refuses (.writeF 1) = false ∧ ServesX State.reset 5 := ⟨reset_serves _, rfl, reset_servesX _⟩
theorem witness_FloatConversionResults : State.reset.refuses .writePc = false ∧
    resolveRm State.reset.frmDyn 0b001 = some .rtz ∧ State.reset.refuses (.readF 2) = false ∧ ServesX State.reset 5 ∧
    Serves State.reset [.readX 6, .writeF 1] := ⟨rfl, by decide, rfl, reset_servesX _, reset_serves _⟩
theorem witness_ConversionSaturates : (-2 ^ 31 : Int) ≤ 2 ^ 31 - 1 ∧ isNaN 0x7FC00000 = true ∧ isInf 0xFF800000 = true ∧
    isNaN 0x3FC00000 = false ∧ isInf 0x3FC00000 = false := by decide
theorem witness_FloatSpecialCases : isNaN 0x7F800001 = true ∧ isInf 0x7F800000 = true ∧ isInf 0xFF800000 = true ∧
    isZero 0x80000000 = true ∧ isZero 0 = true ∧ (0xBF800000#32).msb = true ∧ isZero 0xBF800000 = false ∧
    isNaN 0xBF800000 = false ∧ isInf 0xBF800000 = false ∧ (0xFF800000#32).msb ≠ ((0x7F800000#32).msb ^^ (0x3F800000#32).msb) ∧
    fValue 0x3F800000 + fValue 0xBF800000 = 0 ∧ fValue 0x3F800000 * fValue 0x40000000 + fValue 0xC0000000 * 2 ^ 149 = 0 := by
  decide +kernel
/-- 1 + 3*2^-25 is above half-way to the next pattern; 1 / 3 and (1 + 2^-23)^2 are inexact: R252 by hand. -/
theorem witness_FiniteResultsAreRounded :
    ([0x3F800000, 0x33C00000, 0x40400000, 0x3F800001].all fun x : Word32 => isNaN x == false && isInf x == false) = true ∧
    fValue 0x3F800000 + fValue 0x33C00000 ≠ 0 ∧ fValue 0x3F800000 * fValue 0x40400000 ≠ 0 ∧
    fAdd .rne 0x3F800000 0x33C00000 = 0x3F800001 ∧ fAdd .rtz 0x3F800000 0x33C00000 = 0x3F800000 ∧
    fDiv .rne 0x3F800000 0x40400000 = 0x3EAAAAAB ∧ fDiv .rdn 0x3F800000 0x40400000 = 0x3EAAAAAA ∧
    fMul .rup 0x3F800001 0x3F800001 = 0x3F800003 ∧ fMul .rne 0x3F800001 0x3F800001 = 0x3F800002 ∧
    fMulAdd .rne 0x3F800001 0x3F800001 0xBF800002 = 0x28800000 ∧
    fOfInt .rne 16777217 = 0x4B800000 ∧ fOfInt .rup (-16777217) = 0xCB800000 := by decide +kernel
theorem witness_RoundToNearest : (RoundingMode.rne = .rne ∨ RoundingMode.rne = .rmm) ∧ 0 < 1 ∧
    2 * 1 < (2 ^ 25 - 1) * 2 ^ 253 * 1 ∧ (2 ^ 25 - 1) * 2 ^ 253 * 1 ≤ 2 * (2 ^ 24 * 2 ^ 253) := by decide
theorem witness_RoundDirected : 3 ≤ fUnits 0x7F7FFFFF * 2 ∧ fUnits 0x7F7FFFFF * 1 < 2 ^ 24 * 2 ^ 253 := by decide +kernel
theorem witness_ExactResultsAreExact :
    isZero 0x40000000 = false ∧ isNaN 0x40000000 = false ∧ isInf 0x40000000 = false ∧
    isNaN 0x3F800000 = false ∧ isInf 0x3F800000 = false ∧ fValue 0x3F800000 + fValue 0x3F800000 = fValue 0x40000000 ∧
    fValue 0x3F800000 * fValue 0x40000000 = fValue 0x40000000 * 2 ^ 149 := by decide +kernel
theorem witness_SquareRootRounds : (0x40000000#32).msb = false ∧ isNaN 0x40000000 = false ∧ isInf 0x40000000 = false ∧
    isZero 0x40000000 = false ∧ isNaN 0x3F800000 = false ∧ isInf 0x3F800000 = false := by decide
theorem witness_CompressedAluResults : (∀ r, State.reset.refuses (.readX r) = false) ∧
    (∀ r, State.reset.refuses (.writeX r) = false) ∧ State.reset.refuses .writePc = false ∧ (8#6) ≠ 0 ∧ (8#5) ≠ 0 :=
  ⟨fun _ => rfl, fun _ => rfl, rfl, by decide, by decide⟩
theorem witness_CompressedMemoryResults : (∀ r, State.reset.refuses (.readX r) = false) ∧
    (∀ r, State.reset.refuses (.writeX r) = false) ∧ State.reset.refuses .writePc = false ∧
    State.reset.refuses (.readMem 4 0) = false ∧ State.reset.refuses (.writeMem 8 0) = false :=
  ⟨fun _ => rfl, fun _ => rfl, rfl, rfl, rfl⟩
theorem witness_CompressedJumpResults : (∀ r, State.reset.refuses (.readX r) = false) ∧
    (∀ r, State.reset.refuses (.writeX r) = false) ∧ State.reset.refuses .readPc = false ∧
    State.reset.refuses .writePc = false := ⟨fun _ => rfl, fun _ => rfl, rfl, rfl⟩
theorem witness_NopAndHints : State.reset.refuses .writePc = false := rfl

end Sys2Proof.Tests
end

section
/-! PROOFS. Width: which words of the encoder are compressed (30_encoding.md R81). -/
namespace Sys2Proof

theorem isRvc_eq_bits (w : Word32) : isRvc w = !(w.getLsbD 0 && w.getLsbD 1) := by
  have h : w.extractLsb 1 0 = 0b11 ↔ w.getLsbD 0 = true ∧ w.getLsbD 1 = true := by
    constructor
    · intro h
      have h0 := congrArg (·.getLsbD 0) h
      have h1 := congrArg (·.getLsbD 1) h
      simpa using And.intro h0 h1
    · rintro ⟨h0, h1⟩
      apply BitVec.eq_of_getLsbD_eq
      intro i hi
      interval_cases i <;> simpa
  rw [isRvc, bne, Bool.not_inj_iff, Bool.eq_iff_iff, beq_iff_eq, Bool.and_eq_true]
  exact h

/-- The compressed instructions are entries 115 to 147 of the table. -/
theorem isRvc_encode (i : Instr) : isRvc (encode i) = decide (115 ≤ i.index) := by
  rw [isRvc_eq_bits]
  cases i <;>
    simp only [encode, encU_bit, encJ_bit, encR_bit, encA_bit, encR4_bit, encI_bit, encSh6_bit, encS_bit, encB_bit,
      zext32_bit, encCR_bit, encCI_bit, encCSS_bit, encCIW_bit, encCL_bit, encCA_bit, encCBa_bit, encCB_bit,
      encCJ_bit, BitVec.getLsbD_append] <;>
    rfl

theorem Instr.width_eq (i : Instr) : i.width = if i.index < 115 then 4 else 2 := by
  rw [Instr.width, isRvc_encode]
  by_cases h : i.index < 115 <;> simp [h]

end Sys2Proof
end

section
/-! PROOFS. Footprint: what an instruction that ends OK can change (10_state.md): one bound per shape of
Machine/Shapes.lean, put together once over all instructions. -/
namespace Sys2Proof.Machine

/-! ### Even words, 10_state.md R27 -/

/-- An even 64-bit word; `PcEven s` is `EvenWord s.pc`. -/
abbrev EvenWord (v : Word) : Prop := v.toNat % 2 = 0

theorem EvenWord.add {a b : Word} (ha : EvenWord a) (hb : EvenWord b) : EvenWord (a + b) := by
  rw [EvenWord, BitVec.toNat_add]
  omega

theorem evenWord_iff_getLsbD (v : Word) : EvenWord v ↔ v.getLsbD 0 = false := by
  simp [EvenWord, BitVec.getLsbD, Nat.testBit_zero]

/-- An offset stored with a constant 0 below its field is even (30_encoding.md R96, 44_compressed.md R325 to R327). -/
theorem evenWord_sext64_append_zero {n : Nat} (o : BitVec n) :
    EvenWord (sext64 ((o ++ 0#1).signExtend 32)) := by
  rw [evenWord_iff_getLsbD, sext64, BitVec.getLsbD_signExtend, BitVec.getLsbD_signExtend, BitVec.getLsbD_append]
  simp

/-- JALR clears bit 0 of its target (40_base_integer.md R144). -/
theorem evenWord_jalrTarget (a off : Word) : EvenWord (jalrTarget a off) := by
  rw [evenWord_iff_getLsbD]
  simp [jalrTarget]

/-- The offset of a compressed store, held in fewer than 12 bits, is the one its full-width store has (44_compressed.md
R302, R308, R309, R336, R337). -/
theorem immI_setWidth {m : Nat} (hm : m < 12) (x : BitVec m) : immI (x.setWidth 12) = x.setWidth 32 := by
  have hmsb : (x.setWidth 12).msb = false := by
    rw [BitVec.msb_setWidth, BitVec.getLsbD_of_ge x _ (by omega), Bool.and_false]
  rw [immI, BitVec.signExtend_eq_setWidth_of_msb_false hmsb, BitVec.setWidth_setWidth (by omega)]

/-! ### The footprint of an instruction -/

/-- What an instruction that ends OK may change: the registers it writes, the bytes it stores to, the reservation it
leaves, and its width, by which pc advances unless a control transfer is taken. -/
structure Footprint where
  xDest : Option Reg := none
  fDest : Option Reg := none
  store : Option (Word × Nat) := none
  resv : Option Word
  width : Word
  takes : Bool := false

/-- The footprint of width `w` and reservation `r` whose other fields are those of the full-width instruction `j`. -/
def Footprint.ofCore (s : State) (r : Option Word) (w : Word) (j : Instr) : Footprint where
  xDest := j.xDestF
  fDest := j.fDestF
  store := j.storeF s
  resv := r
  width := w
  takes := j.takesF s

/-- The footprint of an instruction run from `s`. Entries 0 to 114 of the table are the full-width ones. -/
def footprint (s : State) (i : Instr) : Footprint :=
  .ofCore s (i.resvAfter s) (if i.index < 115 then 4 else 2) i.core

/-- `t` differs from `s` by no more than the footprint: everything outside it is kept, and an even pc stays even. -/
structure Footprint.Bounds (p : Footprint) (s t : State) : Prop where
  getX : ∀ r, p.xDest ≠ some r → t.getX r = s.getX r
  getF : ∀ r, p.fDest ≠ some r → t.getF r = s.getF r
  frmDyn : t.frmDyn = s.frmDyn
  facade : t.facade = s.facade
  resv : t.resv = p.resv
  memKept : p.store = none → t.mem = s.mem
  memStored : ∀ a n, p.store = some (a, n) → ∃ v, t.mem = storeLE s.mem a v n
  pc : p.takes = false → t.pc = s.pc + p.width
  pcEven : EvenWord s.pc → EvenWord t.pc

namespace Footprint.Bounds

variable {s t : State} {p : Footprint} {w : Word}

/-! ### The bound of each form of end state -/

/-- Nothing but pc changes. -/
theorem of_withPc {b : Bool} {pc : Word} (hpc : b = false → pc = s.pc + w) (he : EvenWord s.pc → EvenWord pc) :
    Bounds { resv := s.resv, width := w, takes := b } s (s.withPc pc) := by
  constructor <;> simp
  case pc => exact hpc
  case pcEven => exact he

/-- An integer register and pc change. -/
theorem of_setX {rd : Reg} {v : Word} {b : Bool} {pc : Word} (hpc : b = false → pc = s.pc + w)
    (he : EvenWord s.pc → EvenWord pc) :
    Bounds { xDest := some rd, resv := s.resv, width := w, takes := b } s ((s.setX rd v).withPc pc) := by
  constructor <;> simp
  case getX => exact fun r hr => s.getX_setX_ne (Ne.symm hr) v
  case pc => exact hpc
  case pcEven => exact he

/-- An integer register changes and pc advances. -/
theorem of_setX_advance {rd : Reg} {v : Word} (hw : EvenWord w) :
    Bounds { xDest := some rd, resv := s.resv, width := w } s ((s.setX rd v).withPc (s.pc + w)) :=
  of_setX (fun _ => rfl) (·.add hw)

/-- A float register changes and pc advances. -/
theorem of_setF_advance {rd : Reg} {v : Word} (hw : EvenWord w) :
    Bounds { fDest := some rd, resv := s.resv, width := w } s ((s.setF rd v).withPc (s.pc + w)) := by
  constructor <;> simp
  case getF => exact fun r hr => by rw [s.getF_setF, if_neg (Ne.symm hr)]
  case pcEven => exact (·.add hw)

/-- Memory changes by a store and pc advances. -/
theorem of_store_advance {a v : Word} {n : Nat} (hw : EvenWord w) :
    Bounds { store := some (a, n), resv := s.resv, width := w } s
      ((s.withMem (storeLE s.mem a v n)).withPc (s.pc + w)) := by
  constructor <;> simp
  case memStored => exact ⟨v, rfl⟩
  case pcEven => exact (·.add hw)

/-! ### The bound of each shape -/

theorem of_raise {f : Fault} (h : raise f = .next t) : p.Bounds s t := by
  simp at h

theorem of_hint (h : hint s = .next t) : Bounds { resv := s.resv, width := 2 } s t := by
  obtain ⟨-, rfl⟩ := hint_next.mp h
  exact of_withPc (fun _ => rfl) (·.add (by decide))

theorem of_aluX0 {rd : Reg} {v : Word} (h : aluX0 w rd v s = .next t) (hw : EvenWord w := by decide) :
    Bounds { xDest := some rd, resv := s.resv, width := w } s t := by
  obtain ⟨-, -, rfl⟩ := aluX0_next.mp h
  exact of_setX_advance hw

theorem of_aluX1 {rd rs1 : Reg} {g : Word → Word} (h : aluX1 w rd rs1 g s = .next t)
    (hw : EvenWord w := by decide) : Bounds { xDest := some rd, resv := s.resv, width := w } s t := by
  obtain ⟨-, -, -, rfl⟩ := aluX1_next.mp h
  exact of_setX_advance hw

theorem of_aluX2 {rd rs1 rs2 : Reg} {g : Word → Word → Word} (h : aluX2 w rd rs1 rs2 g s = .next t)
    (hw : EvenWord w := by decide) : Bounds { xDest := some rd, resv := s.resv, width := w } s t := by
  obtain ⟨-, -, -, -, rfl⟩ := aluX2_next.mp h
  exact of_setX_advance hw

theorem of_pcRel {rd : Reg} {v : Word} (h : pcRel w rd v s = .next t) (hw : EvenWord w := by decide) :
    Bounds { xDest := some rd, resv := s.resv, width := w } s t := by
  obtain ⟨-, -, -, rfl⟩ := pcRel_next.mp h
  exact of_setX_advance hw

theorem of_jump {rd : Reg} {off : Word} (h : jump w rd off s = .next t) (ho : EvenWord off) :
    Bounds { xDest := some rd, resv := s.resv, width := w, takes := true } s t := by
  obtain ⟨-, -, -, rfl⟩ := jump_next.mp h
  exact of_setX (by simp) (·.add ho)

theorem of_jumpReg {rd rs1 : Reg} {off : Word} (h : jumpReg w rd rs1 off s = .next t) :
    Bounds { xDest := some rd, resv := s.resv, width := w, takes := true } s t := by
  obtain ⟨-, -, -, -, rfl⟩ := jumpReg_next.mp h
  exact of_setX (by simp) fun _ => evenWord_jalrTarget _ _

theorem of_branch {rs1 rs2 : Reg} {off : Word} {c : Word → Word → Bool} (h : branch w rs1 rs2 off c s = .next t)
    (ho : EvenWord off) (hw : EvenWord w := by decide) :
    Bounds { resv := s.resv, width := w, takes := c (s.getX rs1) (s.getX rs2) } s t := by
  obtain ⟨-, -, -, -, rfl⟩ := branch_next.mp h
  refine of_withPc (fun hc => by simp [hc]) fun hs => ?_
  split
  · exact hs.add ho
  · exact hs.add hw

theorem of_loadX {rd rs1 : Reg} {imm : Word32} {n : Nat} {ext : Word → Word}
    (h : loadX w rd rs1 imm n ext s = .next t) (hw : EvenWord w := by decide) :
    Bounds { xDest := some rd, resv := s.resv, width := w } s t := by
  obtain ⟨-, -, -, -, rfl⟩ := loadX_next.mp h
  exact of_setX_advance hw

/-- The store is stated at `imm'`: a compressed store keeps its immediate in another field than its full-width one. -/
theorem of_storeX {rs1 rs2 : Reg} {imm imm' : Word32} {n : Nat} (h : storeX w rs1 rs2 imm n s = .next t)
    (hi : imm' = imm) (hw : EvenWord w := by decide) :
    Bounds { store := some (effAddr (s.getX rs1) imm', n), resv := s.resv, width := w } s t := by
  obtain ⟨-, -, -, -, rfl⟩ := storeX_next.mp h
  rw [hi]
  exact of_store_advance hw

theorem of_loadReserved {m n : Nat} {rd rs1 : Reg} (h : loadReserved m n rd rs1 s = .next t) :
    Bounds { xDest := some rd, resv := some (s.getX rs1), width := 4 } s t := by
  obtain ⟨-, -, -, -, -, rfl⟩ := loadReserved_next.mp h
  constructor <;> simp
  case getX => exact fun r hr => State.getX_setX_ne _ (Ne.symm hr) _
  case pcEven => exact (·.add (by decide))

theorem of_storeConditional {n : Nat} {rd rs1 rs2 : Reg} (h : storeConditional n rd rs1 rs2 s = .next t) :
    Bounds { xDest := some rd, store := if s.resv = some (s.getX rs1) then some (s.getX rs1, n) else none,
             resv := none, width := 4 } s t := by
  obtain ⟨-, -, -, -, -, h⟩ := storeConditional_next.mp h
  split at h
  next hr =>
    obtain ⟨-, rfl⟩ := h
    constructor <;> simp [hr]
    case getX => exact fun r hr => State.getX_setX_ne _ (Ne.symm hr) _
    case memStored => exact ⟨_, rfl⟩
    case pcEven => exact (·.add (by decide))
  next hr =>
    subst h
    constructor <;> simp [hr]
    case getX => exact fun r hr => State.getX_setX_ne _ (Ne.symm hr) _
    case pcEven => exact (·.add (by decide))

theorem of_amo {m n : Nat} {g : BitVec m → BitVec m → BitVec m} {rd rs1 rs2 : Reg}
    (h : amo m n g rd rs1 rs2 s = .next t) :
    Bounds { xDest := some rd, store := some (s.getX rs1, n), resv := s.resv, width := 4 } s t := by
  obtain ⟨-, -, -, -, -, -, -, rfl⟩ := amo_next.mp h
  constructor <;> simp
  case getX => exact fun r hr => State.getX_setX_ne _ (Ne.symm hr) _
  case memStored => exact ⟨_, rfl⟩
  case pcEven => exact (·.add (by decide))

theorem of_withRm {c : BitVec 3} {k : RoundingMode → Result} (h : withRm s c k = .next t)
    (hk : ∀ m, k m = .next t → p.Bounds s t) : p.Bounds s t := by
  obtain ⟨m, -, hm⟩ := withRm_next.mp h
  exact hk m hm

theorem of_fpu1 {rd rs1 : Reg} {g : Word32 → Word32} (h : fpu1 rd rs1 g s = .next t) :
    Bounds { fDest := some rd, resv := s.resv, width := 4 } s t := by
  obtain ⟨-, -, -, rfl⟩ := fpu1_next.mp h
  exact of_setF_advance (by decide)

theorem of_fpu2 {rd rs1 rs2 : Reg} {g : Word32 → Word32 → Word32} (h : fpu2 rd rs1 rs2 g s = .next t) :
    Bounds { fDest := some rd, resv := s.resv, width := 4 } s t := by
  obtain ⟨-, -, -, -, rfl⟩ := fpu2_next.mp h
  exact of_setF_advance (by decide)

theorem of_fpu3 {rd rs1 rs2 rs3 : Reg} {g : Word32 → Word32 → Word32 → Word32}
    (h : fpu3 rd rs1 rs2 rs3 g s = .next t) : Bounds { fDest := some rd, resv := s.resv, width := 4 } s t := by
  obtain ⟨-, -, -, -, -, rfl⟩ := fpu3_next.mp h
  exact of_setF_advance (by decide)

theorem of_fpuX1 {rd rs1 : Reg} {g : Word32 → Word} (h : fpuX1 rd rs1 g s = .next t) :
    Bounds { xDest := some rd, resv := s.resv, width := 4 } s t := by
  obtain ⟨-, -, -, rfl⟩ := fpuX1_next.mp h
  exact of_setX_advance (by decide)

theorem of_fpuX2 {rd rs1 rs2 : Reg} {g : Word32 → Word32 → Word} (h : fpuX2 rd rs1 rs2 g s = .next t) :
    Bounds { xDest := some rd, resv := s.resv, width := 4 } s t := by
  obtain ⟨-, -, -, -, rfl⟩ := fpuX2_next.mp h
  exact of_setX_advance (by decide)

theorem of_fpuOfX {rd rs1 : Reg} {g : Word → Word32} (h : fpuOfX rd rs1 g s = .next t) :
    Bounds { fDest := some rd, resv := s.resv, width := 4 } s t := by
  obtain ⟨-, -, -, rfl⟩ := fpuOfX_next.mp h
  exact of_setF_advance (by decide)

theorem of_execFlw {rd rs1 : Reg} {imm : BitVec 12} (h : execFlw rd rs1 imm s = .next t) :
    Bounds { fDest := some rd, resv := s.resv, width := 4 } s t := by
  simp only [execFlw, readX_next, memRead_next, writeS_next, advance_next] at h
  obtain ⟨-, -, -, -, rfl⟩ := h
  exact of_setF_advance (by decide)

theorem of_execFsw {rs1 rs2 : Reg} {imm : BitVec 12} (h : execFsw rs1 rs2 imm s = .next t) :
    Bounds { store := some (effAddr (s.getX rs1) (immI imm), 4), resv := s.resv, width := 4 } s t := by
  simp only [execFsw, readX_next, readF_next, memWrite_next, advance_next] at h
  obtain ⟨-, -, -, -, rfl⟩ := h
  exact of_store_advance (by decide)

theorem of_execFmvXW {rd rs1 : Reg} (h : execFmvXW rd rs1 s = .next t) :
    Bounds { xDest := some rd, resv := s.resv, width := 4 } s t := by
  simp only [execFmvXW, readF_next, writeX_next, advance_next, State.setX_pc] at h
  obtain ⟨-, -, -, rfl⟩ := h
  exact of_setX_advance (by decide)

/-! ### Compressed instructions with a sentinel form -/

/-- A compressed instruction with a sentinel form: on the condition `c` it is the sentinel, else its expansion `j`. -/
theorem of_expansion {c : Prop} [Decidable c] {i j : Instr} {m m' : Result}
    (hi : i.fullWidth = if c then none else some j)
    (hs : m = .next t → (Footprint.ofCore s s.resv 2 i).Bounds s t)
    (hj : m' = .next t → (Footprint.ofCore s s.resv 2 j).Bounds s t) (h : (if c then m else m') = .next t)
    (hf : footprint s i = Footprint.ofCore s s.resv 2 i.core := by rfl) : (footprint s i).Bounds s t := by
  rw [hf, Instr.core, hi]
  split at h
  next hc => rw [if_pos hc]; exact hs h
  next hc => rw [if_neg hc]; exact hj h

theorem of_execCLui {rd : Reg} {imm : BitVec 6} (h : execCLui rd imm s = .next t) :
    (footprint s (.cLui rd imm)).Bounds s t := by
  have h' : (if imm = 0 ∨ rd = 0 then (if imm = 0 then raise .decodeFailure else hint s)
      else aluX0 2 rd (sext64 (cImmLui imm)) s) = .next t := by
    rw [← h, execCLui]; split_ifs <;> simp_all
  refine of_expansion rfl (fun hm => ?_) of_aluX0 h'
  split at hm
  · exact of_raise hm
  · exact of_hint hm

end Footprint.Bounds

/-! ### All instructions -/

open Footprint.Bounds in
/-- An instruction that ends OK keeps everything outside its footprint. -/
theorem exec_bounds {i : Instr} {s t : State} (h : exec i s = .next t) : (footprint s i).Bounds s t := by
  unfold exec at h
  cases i with
  | lui => exact (of_aluX0 h :)
  | auipc => exact (of_pcRel h :)
  | jal | cJ => exact (of_jump h (evenWord_sext64_append_zero _) :)
  | jalr | cJalr => exact (of_jumpReg h :)
  | beq | bne | blt | bge | bltu | bgeu | cBeqz | cBnez => exact (of_branch h (evenWord_sext64_append_zero _) :)
  | lb | lh | lw | ld | lbu | lhu | lwu | cLw | cLd => exact (of_loadX h :)
  | sb | sh | sw | sd => exact (of_storeX h rfl :)
  | addi | slti | sltiu | xori | ori | andi | slli | srli | srai | addiw | slliw | srliw | sraiw | cAndi
    => exact (of_aluX1 h :)
  | add | sub | sll | slt | sltu | xor | srl | sra | or | and | addw | subw | sllw | srlw | sraw | mul | mulh
  | mulhsu | mulhu | div | divu | rem | remu | mulw | divw | divuw | remw | remuw | cSub | cXor | cOr | cAnd | cSubw
  | cAddw => exact (of_aluX2 h :)
  | ebreak | cEbreak => exact (of_raise h :)
  | lrW | lrD => exact (of_loadReserved h :)
  | scW | scD => exact (of_storeConditional h :)
  | amoswapW | amoaddW | amoxorW | amoandW | amoorW | amominW | amomaxW | amominuW | amomaxuW | amoswapD | amoaddD
  | amoxorD | amoandD | amoorD | amominD | amomaxD | amominuD | amomaxuD => exact (of_amo h :)
  | flw => exact (of_execFlw h :)
  | fsw => exact (of_execFsw h :)
  | fmaddS | fmsubS | fnmsubS | fnmaddS => exact of_withRm h fun _ h => (of_fpu3 h :)
  | faddS | fsubS | fmulS | fdivS => exact of_withRm h fun _ h => (of_fpu2 h :)
  | fsqrtS => exact of_withRm h fun _ h => (of_fpu1 h :)
  | fsgnjS | fsgnjnS | fsgnjxS | fminS | fmaxS => exact (of_fpu2 h :)
  | fcvtWS | fcvtWuS | fcvtLS | fcvtLuS => exact of_withRm h fun _ h => (of_fpuX1 h :)
  | fmvXW => exact (of_execFmvXW h :)
  | feqS | fltS | fleS => exact (of_fpuX2 h :)
  | fclassS => exact (of_fpuX1 h :)
  | fcvtSW | fcvtSWu | fcvtSL | fcvtSLu => exact of_withRm h fun _ h => (of_fpuOfX h :)
  | fmvWX => exact (of_fpuOfX h :)
  | cAddi4spn | cAddiw | cAddi16sp => exact of_expansion rfl of_raise of_aluX1 h
  | cSw | cSd | cSwsp | cSdsp => exact (of_storeX h (immI_setWidth (by decide) _) :)
  | cNop => exact (of_hint h :)
  | cAddi | cLi | cSrli | cSrai | cSlli => exact of_expansion rfl of_hint of_aluX1 h
  | cLui => exact (of_execCLui h :)
  | cLwsp | cLdsp => exact of_expansion rfl of_raise of_loadX h
  | cJr => exact of_expansion rfl of_raise of_jumpReg h
  | cMv | cAdd => exact of_expansion rfl of_hint of_aluX2 h

/-! ### The parts of the footprint -/

variable {s t : State} {i : Instr}

theorem exec_mem_wf (h : exec i s = .next t) (hm : s.mem.wf = true) : t.mem.wf = true := by
  have hb := exec_bounds h
  cases hs : (footprint s i).store with
  | none => rw [hb.memKept hs]; exact hm
  | some an =>
    obtain ⟨v, hv⟩ := hb.memStored _ _ hs
    rw [hv]
    exact storeLE_wf _ _ _ _ hm

theorem exec_pcEven (h : exec i s = .next t) (hs : PcEven s) : PcEven t := (exec_bounds h).pcEven hs

theorem exec_resv (h : exec i s = .next t) : t.resv = i.resvAfter s := (exec_bounds h).resv

theorem exec_pc (h : exec i s = .next t) (ht : i.takes s = false) : t.pc = s.pc + i.width := by
  rw [Instr.width_eq]
  exact (exec_bounds h).pc ht

/-! ### The step and the host, 70_reset_and_hazards.md R391, R397, R398 -/

/-- A step that ends OK is the execution of the instruction decoded from the fetched word. -/
theorem step_next (h : step s = .next t) :
    ∃ w i, fetchWord s = some w ∧ decode w = .ok i ∧ exec i s = .next t := by
  unfold step fetchDecode at h
  split at h
  · cases h
  · split at h
    next => simp at h
    next w hw =>
      split at h
      next => simp at h
      next i hi => exact ⟨w, i, hw, hi, h⟩

theorem step_launchParameters (h : step s = .next t) : t.frmDyn = s.frmDyn ∧ t.facade = s.facade := by
  obtain ⟨_, _, -, -, hx⟩ := step_next h
  exact ⟨(exec_bounds hx).frmDyn, (exec_bounds hx).facade⟩

theorem HostMove.apply_launchParameters (m : HostMove) (s : State) :
    (m.apply s).frmDyn = s.frmDyn ∧ (m.apply s).facade = s.facade := by
  cases m <;> simp [HostMove.apply]

theorem HostedRun.launchParameters (h : HostedRun s t) : t.frmDyn = s.frmDyn ∧ t.facade = s.facade := by
  induction h with
  | refl => exact ⟨rfl, rfl⟩
  | step h _ ih =>
    obtain ⟨hm, hf⟩ := step_launchParameters h
    exact ⟨ih.1.trans hm, ih.2.trans hf⟩
  | move m _ ih =>
    obtain ⟨hm, hf⟩ := m.apply_launchParameters _
    exact ⟨ih.1.trans hm, ih.2.trans hf⟩

end Sys2Proof.Machine
end

section
/-! PROOFS. State: the statements on 10_state.md. -/
namespace Sys2Proof.Machine

/-! ### Boxing, 10_state.md R31 to R33 -/

theorem nanUnBox_nanBox (v : Word32) : nanUnBox (nanBox v) = v := by
  apply BitVec.eq_of_getLsbD_eq
  intro i hi
  simp only [nanUnBox, nanBox, low32, BitVec.getLsbD_setWidth, BitVec.getLsbD_append, hi, decide_true, Bool.true_and,
    if_true]

theorem nanBox_eq_or (v : Word32) : nanBox v = v.setWidth 64 ||| 0xFFFFFFFF00000000 := by
  apply BitVec.eq_of_toNat_eq
  have hv : v.toNat % 2 ^ 64 = v.toNat := Nat.mod_eq_of_lt (v.isLt.trans (by decide))
  rw [nanBox, BitVec.toNat_append, BitVec.toNat_or, BitVec.toNat_setWidth, hv, Nat.or_comm]
  rfl

theorem setWidth_nanUnBox (w : Word) : (nanUnBox w).setWidth 64 = w &&& 0x00000000FFFFFFFF := by
  apply BitVec.eq_of_toNat_eq
  have hlt : w.toNat % 2 ^ 32 < 2 ^ 64 := (Nat.mod_lt _ (by decide)).trans (by decide)
  rw [nanUnBox, low32, BitVec.toNat_setWidth, BitVec.toNat_setWidth, BitVec.toNat_and, Nat.mod_eq_of_lt hlt]
  exact (Nat.and_two_pow_sub_one_eq_mod w.toNat 32).symm

theorem unboxChecked_eq (w : Word) :
    unboxChecked w = if w >>> 32 = 0xFFFFFFFF then w.setWidth 32 else 0x7FC00000 := by
  have h : w.extractLsb 63 32 = 0xFFFFFFFF#32 ↔ w >>> 32 = 0xFFFFFFFF#64 := by
    rw [← BitVec.toNat_inj, ← BitVec.toNat_inj]
    have hw : w.toNat >>> 32 < 2 ^ 32 := by
      rw [Nat.shiftRight_eq_div_pow]
      exact Nat.div_lt_of_lt_mul w.isLt
    simp only [BitVec.extractLsb_toNat, BitVec.toNat_ushiftRight, BitVec.toNat_ofNat]
    omega
  simp only [unboxChecked, h]
  rfl

/-! ### Multi-byte stores, byte by byte -/

/-- Each byte of memory after a store: the value's inside the stored range, the old one outside (20_memory.md R52). -/
theorem read_storeLE (m : Memory) (a v c : Word) {n : Nat} (hn : n ≤ 2 ^ 64) :
    Memory.read (storeLE m a v n) c.toNat =
      if (c - a).toNat < n then (v >>> (8 * (c - a).toNat)).setWidth 8 else Memory.read m c.toNat := by
  have hc : c = a + BitVec.ofNat 64 (c - a).toNat := by
    rw [BitVec.ofNat_toNat, BitVec.setWidth_eq, BitVec.add_comm, BitVec.sub_add_cancel]
  split
  next h =>
    have hr := read_storeLE_inside m a v n (c - a).toNat hn h
    rwa [← hc] at hr
  next h =>
    apply read_storeLE_outside
    rintro k hk rfl
    apply h
    rw [BitVec.add_comm, BitVec.add_sub_cancel, BitVec.toNat_ofNat]
    exact (Nat.mod_le _ _).trans_lt hk

/-- A store-conditional that ends OK, on a matching reservation and on another (42_atomics.md R223, R245). -/
theorem storeConditional_spec {s t : State} {n : Nat} {rd rs1 rs2 : Reg} (hn : n ≤ 2 ^ 64)
    (h : storeConditional n rd rs1 rs2 s = .next t) :
    (s.resv = some (s.getX rs1) → (rd ≠ 0 → t.getX rd = 0) ∧ ∀ c : Word, t.byteAt c =
      if (c - s.getX rs1).toNat < n then ((s.getX rs2) >>> (8 * (c - s.getX rs1).toNat)).setWidth 8
      else s.byteAt c) ∧
    (s.resv ≠ some (s.getX rs1) → (rd ≠ 0 → t.getX rd = 1) ∧ t.mem = s.mem) := by
  obtain ⟨-, -, -, -, -, h⟩ := storeConditional_next.mp h
  constructor
  · intro hr
    rw [if_pos hr] at h
    obtain ⟨-, rfl⟩ := h
    exact ⟨fun hd => State.getX_setX_same _ hd _, fun c => by simp [read_storeLE _ _ _ _ hn, State.byteAt]⟩
  · intro hr
    rw [if_neg hr] at h
    subst h
    exact ⟨fun hd => State.getX_setX_same _ hd _, by simp⟩

/-! ### The statements -/

/-- Settles O14: the canonical form is kept by every store, the parity of pc by every shape. -/
theorem stepKeepsInvariant : Obligations.StepKeepsInvariant := by
  intro s t hs h
  obtain ⟨_, _, -, -, hx⟩ := step_next h
  exact ⟨exec_mem_wf hx hs.memWf, exec_pcEven hx hs.pcEven⟩

/-- Settles O15: every shape keeps pc even. -/
theorem pcStaysEven : Obligations.PcStaysEven :=
  fun _ _ _ hs h => exec_pcEven h hs

/-- Settles O16, by induction on the run. -/
theorem runConstants : Obligations.RunConstants := by
  intro s u h
  obtain ⟨hm, hf⟩ := h.launchParameters
  exact ⟨hm, hf, u.getX_zero⟩

/-- Settles O27, read off the footprint. -/
theorem registerFrame : Obligations.RegisterFrame := by
  intro i s t h
  have hb := exec_bounds h
  exact ⟨hb.getX, hb.getF, hb.frmDyn, hb.facade⟩

/-- Settles O29, read off the footprint; the width is the one the encoder gives the instruction. -/
theorem pcAdvancesByWidth : Obligations.PcAdvancesByWidth :=
  fun _ _ _ h ht => exec_pc h ht

/-- Settles O30: the reservation is read off the footprint, the store of SC off its shape. -/
theorem reservationProtocol : Obligations.ReservationProtocol := by
  refine ⟨fun i s t h => ?_, fun s t rd rs1 rs2 q i n hi h => ?_, fun _ => rfl, rfl⟩
  · have hr := exec_resv h
    cases i <;> exact hr
  · simp only [List.mem_cons, Prod.mk.injEq, List.not_mem_nil, or_false] at hi
    obtain ⟨rfl, rfl⟩ | ⟨rfl, rfl⟩ := hi
    · exact storeConditional_spec (by decide) h
    · exact storeConditional_spec (by decide) h

/-- Settles O22, by whether the written register is 0. -/
theorem registerZero : Obligations.RegisterZero := by
  intro s r r' v k
  refine ⟨s.getX_zero, s.setX_zero v, by simp [writeX], ?_⟩
  by_cases h0 : r = 0#5
  · simp [h0]
  · by_cases hr : r' = r
    · subst hr; simp [State.getX_setX, h0]
    · simp [State.getX_setX_ne s hr, hr]

/-- Settles O23, from the bit-level facts on boxing. -/
theorem naNBoxing : Obligations.NaNBoxing := by
  intro s r r' v w
  refine ⟨nanUnBox_nanBox v, nanBox_eq_or v, setWidth_nanUnBox w, fun k h => ?_, fun k h => ?_, s.getF_setF r r' w⟩
  · simp only [readS, readF, h, unboxChecked_eq, Bool.false_eq_true, if_false]
  · simp only [writeS, writeF, h, nanBox, Bool.false_eq_true, if_false]

end Sys2Proof.Machine
end

section
/-! PROOFS. Table: which entry of the pattern table takes a word (30_encoding.md R104 to R107): two entries share a word
only in the pairs of R106, so the first entry that takes a well-formed instruction's word is its own. -/
namespace Sys2Proof

open Laws.Reads in
/-- An instruction's word matches its own entry, which reads the instruction back. -/
theorem encode_reads (i : Instr) : Statement i :=
  match i with
  | .lui .. => lui .. | .auipc .. => auipc .. | .jal .. => jal .. | .jalr .. => jalr .. | .beq .. => beq ..
  | .bne .. => bne .. | .blt .. => blt .. | .bge .. => bge .. | .bltu .. => bltu .. | .bgeu .. => bgeu ..
  | .lb .. => lb .. | .lh .. => lh .. | .lw .. => lw .. | .ld .. => ld .. | .lbu .. => lbu .. | .lhu .. => lhu ..
  | .lwu .. => lwu .. | .sb .. => sb .. | .sh .. => sh .. | .sw .. => sw .. | .sd .. => sd .. | .addi .. => addi ..
  | .slti .. => slti .. | .sltiu .. => sltiu .. | .xori .. => xori .. | .ori .. => ori .. | .andi .. => andi ..
  | .slli .. => slli .. | .srli .. => srli .. | .srai .. => srai .. | .add .. => add .. | .sub .. => sub ..
  | .sll .. => sll .. | .slt .. => slt .. | .sltu .. => sltu .. | .xor .. => xor .. | .srl .. => srl ..
  | .sra .. => sra .. | .or .. => or .. | .and .. => and .. | .addiw .. => addiw .. | .slliw .. => slliw ..
  | .srliw .. => srliw .. | .sraiw .. => sraiw .. | .addw .. => addw .. | .subw .. => subw .. | .sllw .. => sllw ..
  | .srlw .. => srlw .. | .sraw .. => sraw .. | .ebreak => ebreak | .mul .. => mul .. | .mulh .. => mulh ..
  | .mulhsu .. => mulhsu .. | .mulhu .. => mulhu .. | .div .. => div .. | .divu .. => divu .. | .rem .. => rem ..
  | .remu .. => remu .. | .mulw .. => mulw .. | .divw .. => divw .. | .divuw .. => divuw .. | .remw .. => remw ..
  | .remuw .. => remuw .. | .lrW .. => lrW .. | .scW .. => scW .. | .amoswapW .. => amoswapW ..
  | .amoaddW .. => amoaddW .. | .amoxorW .. => amoxorW .. | .amoandW .. => amoandW .. | .amoorW .. => amoorW ..
  | .amominW .. => amominW .. | .amomaxW .. => amomaxW .. | .amominuW .. => amominuW .. | .amomaxuW .. => amomaxuW ..
  | .lrD .. => lrD .. | .scD .. => scD .. | .amoswapD .. => amoswapD .. | .amoaddD .. => amoaddD ..
  | .amoxorD .. => amoxorD .. | .amoandD .. => amoandD .. | .amoorD .. => amoorD .. | .amominD .. => amominD ..
  | .amomaxD .. => amomaxD .. | .amominuD .. => amominuD .. | .amomaxuD .. => amomaxuD .. | .flw .. => flw ..
  | .fsw .. => fsw .. | .fmaddS .. => fmaddS .. | .fmsubS .. => fmsubS .. | .fnmsubS .. => fnmsubS ..
  | .fnmaddS .. => fnmaddS .. | .faddS .. => faddS .. | .fsubS .. => fsubS .. | .fmulS .. => fmulS ..
  | .fdivS .. => fdivS .. | .fsqrtS .. => fsqrtS .. | .fsgnjS .. => fsgnjS .. | .fsgnjnS .. => fsgnjnS ..
  | .fsgnjxS .. => fsgnjxS .. | .fminS .. => fminS .. | .fmaxS .. => fmaxS .. | .fcvtWS .. => fcvtWS ..
  | .fcvtWuS .. => fcvtWuS .. | .fmvXW .. => fmvXW .. | .feqS .. => feqS .. | .fltS .. => fltS ..
  | .fleS .. => fleS .. | .fclassS .. => fclassS .. | .fcvtSW .. => fcvtSW .. | .fcvtSWu .. => fcvtSWu ..
  | .fmvWX .. => fmvWX .. | .fcvtLS .. => fcvtLS .. | .fcvtLuS .. => fcvtLuS .. | .fcvtSL .. => fcvtSL ..
  | .fcvtSLu .. => fcvtSLu .. | .cAddi4spn .. => cAddi4spn .. | .cLw .. => cLw .. | .cLd .. => cLd ..
  | .cSw .. => cSw .. | .cSd .. => cSd .. | .cNop => cNop | .cAddi .. => cAddi .. | .cAddiw .. => cAddiw ..
  | .cLi .. => cLi .. | .cAddi16sp .. => cAddi16sp .. | .cLui .. => cLui .. | .cSrli .. => cSrli ..
  | .cSrai .. => cSrai .. | .cAndi .. => cAndi .. | .cSub .. => cSub .. | .cXor .. => cXor .. | .cOr .. => cOr ..
  | .cAnd .. => cAnd .. | .cSubw .. => cSubw .. | .cAddw .. => cAddw .. | .cJ .. => cJ .. | .cBeqz .. => cBeqz ..
  | .cBnez .. => cBnez .. | .cSlli .. => cSlli .. | .cLwsp .. => cLwsp .. | .cLdsp .. => cLdsp .. | .cJr .. => cJr ..
  | .cMv .. => cMv .. | .cEbreak => cEbreak | .cJalr .. => cJalr .. | .cAdd .. => cAdd .. | .cSwsp .. => cSwsp ..
  | .cSdsp .. => cSdsp ..

/-! ### Words that two entries share, R106 -/

/-- A field that a mask keeps whole reads alike in the word and in what the mask leaves of it. -/
theorem extractLsb_of_and_eq {w m v : Word32} (h : w &&& m = v) {hi lo : Nat}
    (hm : m.extractLsb hi lo = BitVec.allOnes (hi - lo + 1)) : w.extractLsb hi lo = v.extractLsb hi lo := by
  rw [← h, BitVec.extractLsb_and, hm, BitVec.and_allOnes]

theorem Entry.hits_iff {e : Entry} {w : Word32} : e.hits w = true ↔ w &&& e.mask = e.eigen := by
  rw [Entry.hits, beq_iff_eq]

/-- Two entries ask different values of some bits that both fix. -/
def Entry.conflicts (e e' : Entry) : Bool := e.eigen &&& e'.mask != e'.eigen &&& e.mask

theorem Entry.not_conflicts_of_hits {e e' : Entry} {w : Word32} (h : e.hits w = true) (h' : e'.hits w = true) :
    e.conflicts e' = false := by
  rw [Entry.hits_iff] at h h'
  rw [Entry.conflicts, bne_eq_false_iff_eq, ← h, ← h', BitVec.and_assoc, BitVec.and_assoc, BitVec.and_comm e.mask]

/-- The indices of the overlapping pairs of R106, the earlier entry first. -/
def overlappingIndices : List (Nat × Nat) :=
  [(120, 121), (124, 125), (141, 142), (143, 144), (143, 145), (144, 145)]

theorem patternTable_conflicts :
    patternTable.zipIdx.Pairwise fun p q => p.1.conflicts q.1 = true ∨ (p.2, q.2) ∈ overlappingIndices := by
  decide +kernel

/-- Two entries that take one word are a pair of R106. -/
theorem mem_overlappingIndices {a b : Nat} {e e' : Entry} {w : Word32} (hab : a < b)
    (ha : patternTable[a]? = some e) (hb : patternTable[b]? = some e') (h : e.hits w = true)
    (h' : e'.hits w = true) : (a, b) ∈ overlappingIndices := by
  obtain ⟨hla, rfl⟩ := List.getElem?_eq_some_iff.mp ha
  obtain ⟨hlb, rfl⟩ := List.getElem?_eq_some_iff.mp hb
  have hp := List.pairwise_iff_getElem.mp patternTable_conflicts a b (by simpa using hla) (by simpa using hlb) hab
  simpa [Entry.not_conflicts_of_hits h h'] using hp

/-- What the later entry of a pair of R106 reads from a word that the earlier one takes is not well formed. -/
theorem not_wellFormed_of_overlap {a b : Nat} {e e' : Entry} {w : Word32} (hab : (a, b) ∈ overlappingIndices)
    (ha : patternTable[a]? = some e) (hb : patternTable[b]? = some e') (h : e.hits w = true) :
    WellFormed (e'.build w) = false := by
  simp only [overlappingIndices, List.mem_cons, Prod.mk.injEq, List.not_mem_nil, or_false] at hab
  obtain ⟨rfl, rfl⟩ | ⟨rfl, rfl⟩ | ⟨rfl, rfl⟩ | ⟨rfl, rfl⟩ | ⟨rfl, rfl⟩ | ⟨rfl, rfl⟩ := hab <;>
    obtain rfl := Option.some.inj ha <;> obtain rfl := Option.some.inj hb <;> rw [Entry.hits_iff] at h
  · have hrd : cRd w = 0 := extractLsb_of_and_eq h rfl
    have himm : cImm6 w = 0 := by rw [cImm6, extractLsb_of_and_eq h rfl, extractLsb_of_and_eq h rfl]; rfl
    simp [WellFormed, hrd, himm]
  · simp [WellFormed, show cRd w = 2 from extractLsb_of_and_eq h rfl]
  · simp [WellFormed, show cRs2 w = 0 from extractLsb_of_and_eq h rfl]
  · simp [WellFormed, show cRd w = 0 from extractLsb_of_and_eq h rfl]
  · simp [WellFormed, show cRs2 w = 0 from extractLsb_of_and_eq h rfl]
  · simp [WellFormed, show cRs2 w = 0 from extractLsb_of_and_eq h rfl]

/-! ### The scan of an instruction's own word, R105 -/

theorem firstMatch_encode {i : Instr} (hi : WellFormed i = true) :
    ∃ e, firstMatch (encode i) = some e ∧ e.build (encode i) = i := by
  obtain ⟨e, he, hhit, hbuild⟩ := encode_reads i
  refine ⟨e, ?_, hbuild⟩
  obtain ⟨hlt, hget⟩ := List.getElem?_eq_some_iff.mp he
  refine List.find?_eq_some_iff_getElem.mpr ⟨hhit, i.index, hlt, hget, fun k hk => ?_⟩
  have hke : patternTable[k]? = some patternTable[k] := List.getElem?_eq_getElem (hk.trans hlt)
  by_contra hkh
  have hkhit : (patternTable[k]).hits (encode i) = true := by simpa using hkh
  have hnot := not_wellFormed_of_overlap (mem_overlappingIndices hk hke he hkhit hhit) hke he hkhit
  rw [hbuild, hi] at hnot
  cases hnot

theorem scanWord_of_isRvc {w : Word32} (h : isRvc w = true) : scanWord w = (w.extractLsb 15 0).setWidth 32 := if_pos h

theorem scanWord_zext32 (c : BitVec 16) : scanWord (zext32 c) = zext32 c := by
  have h : ((zext32 c).extractLsb 15 0).setWidth 32 = zext32 c := by
    apply BitVec.eq_of_toNat_eq
    have := c.isLt
    simp [zext32]
    omega
  rw [scanWord, h, ite_self]

theorem scanWord_scanWord (w : Word32) : scanWord (scanWord w) = scanWord w := by
  by_cases h : isRvc w = true
  · have hs : scanWord w = zext32 (w.extractLsb 15 0) := scanWord_of_isRvc h
    rw [hs, scanWord_zext32]
  · have hs : scanWord w = w := if_neg h
    rw [hs, hs]

/-- Bits 31:16 of a compressed input word do not matter (R81). -/
theorem decode_scanWord (w : Word32) : decode (scanWord w) = decode w := by
  rw [decode, scanWord_scanWord, ← decode]

/-- A compressed instruction's word has zeros above its parcel. -/
theorem exists_encode_eq_zext32 {i : Instr} (h : 115 ≤ i.index) : ∃ c, encode i = zext32 c := by
  cases i with
  | cNop => exact ⟨0x0001, rfl⟩
  | cEbreak => exact ⟨0x9002, rfl⟩
  | cAddi4spn | cLw | cLd | cSw | cSd | cAddi | cAddiw | cLi | cAddi16sp | cLui | cSrli | cSrai | cAndi | cSub | cXor
  | cOr | cAnd | cSubw | cAddw | cJ | cBeqz | cBnez | cSlli | cLwsp | cLdsp | cJr | cMv | cJalr | cAdd | cSwsp | cSdsp
    => exact ⟨_, rfl⟩
  | _ => simp [Instr.index] at h

theorem scanWord_encode (i : Instr) : scanWord (encode i) = encode i := by
  by_cases h : 115 ≤ i.index
  · obtain ⟨c, hc⟩ := exists_encode_eq_zext32 h
    rw [hc, scanWord_zext32]
  · rw [scanWord, isRvc_encode, decide_eq_false h, if_neg Bool.false_ne_true]

/-- The decoder reads a well-formed instruction back from its word (R104, R105, R109). -/
theorem decode_encode {i : Instr} (hi : WellFormed i = true) : decode (encode i) = .ok i := by
  obtain ⟨e, he, hbuild⟩ := firstMatch_encode hi
  rw [decode, scanWord_encode, he]
  exact congrArg _ hbuild

/-! ### Full-width words that no entry takes, R63, R82, R115 -/

/-- The major opcodes of the full-width entries other than EBREAK (R104). -/
def usedOpcodes : List (BitVec 7) :=
  [0x03, 0x07, 0x13, 0x17, 0x1B, 0x23, 0x27, 0x2F, 0x33, 0x37, 0x3B, 0x43, 0x47, 0x4B, 0x4F, 0x53, 0x63, 0x67, 0x6F]

/-- What an entry fixes of the low bits: a compressed entry low bits other than 11, a full-width one its major opcode,
and EBREAK the whole word. -/
theorem patternTable_lowBits : ∀ e ∈ patternTable,
    (e.mask.extractLsb 1 0 = BitVec.allOnes 2 ∧ e.eigen.extractLsb 1 0 ≠ 0b11#2) ∨
    (e.mask.extractLsb 6 0 = BitVec.allOnes 7 ∧ e.eigen.extractLsb 6 0 ∈ usedOpcodes) ∨
    (e.mask = BitVec.allOnes 32 ∧ e.eigen = 0x00100073#32) := by
  decide +kernel

/-- A full-width word that an entry takes has a used major opcode or is EBREAK. -/
theorem usedOpcode_of_hits {e : Entry} {w : Word32} (he : e ∈ patternTable) (hw : w.extractLsb 1 0 = 0b11#2)
    (h : e.hits w = true) : w.extractLsb 6 0 ∈ usedOpcodes ∨ w = 0x00100073#32 := by
  rw [Entry.hits_iff] at h
  obtain ⟨hm, hne⟩ | ⟨hm, hop⟩ | ⟨hm, hv⟩ := patternTable_lowBits e he
  · exact absurd ((extractLsb_of_and_eq h hm).symm.trans hw) hne
  · exact .inl (extractLsb_of_and_eq h hm ▸ hop)
  · rw [hm, BitVec.and_allOnes] at h
    exact .inr (h.trans hv)

/-- The block's output for a full-width word that no entry takes (R105, R112). -/
theorem decodeBlock_of_no_hits {w : Word32} (hw : w.extractLsb 1 0 = 0b11#2)
    (h : ∀ e ∈ patternTable, e.hits w = false) :
    decodeBlock w = { inst := .invalid w, raw := w, isRvc := false, pattern := none } := by
  have hrvc : isRvc w = false := by simp [isRvc, hw]
  have hscan : scanWord w = w := by rw [scanWord, hrvc, if_neg Bool.false_ne_true]
  have hfirst : firstMatch w = none := List.find?_eq_none.mpr fun e he => by simp [h e he]
  have hindex : patternTable.findIdx? (·.hits w) = none := List.findIdx?_eq_none_iff.mpr h
  simp only [decodeBlock, decode, hscan, hfirst, hindex, hrvc]

/-- Settles O7: an entry that takes a full-width word has a used major opcode or is EBREAK. -/
theorem unusedOpcodesInvalid : Obligations.UnusedOpcodesInvalid := by
  intro w hw hop
  refine decodeBlock_of_no_hits hw fun e he => Bool.eq_false_iff.mpr fun hhit => ?_
  have hused := usedOpcode_of_hits he hw hhit
  obtain hout | ⟨hsys, hne⟩ := hop
  · obtain hin | rfl := hused
    · exact hout (List.mem_append_left [0x73#7] hin)
    · exact hout (by decide)
  · obtain hin | rfl := hused
    · rw [hsys] at hin
      exact absurd hin (by decide)
    · exact hne rfl

end Sys2Proof
end

section
/-! PROOFS. Bytes: multi-byte reads, canonical memories and the bytes an instruction stores, byte by byte (20_memory.md
R50 to R53). -/
namespace Sys2Proof.Machine

variable {s t : State}

/-! ### Multi-byte reads, bit by bit and byte by byte, 20_memory.md R50, R51 -/

theorem add_one_add_ofNat (a : Word) (k : Nat) : a + 1#64 + BitVec.ofNat 64 k = a + BitVec.ofNat 64 (k + 1) := by
  rw [BitVec.add_assoc, ← BitVec.ofNat_add, Nat.add_comm]

theorem getLsbD_loadLE (m : Memory) (a : Word) (n i : Nat) : (loadLE m a n).getLsbD i =
    (decide (i < 8 * n ∧ i < 64) && (Memory.read m (a + BitVec.ofNat 64 (i / 8)).toNat).getLsbD (i % 8)) := by
  induction n generalizing a i with
  | zero => simp [loadLE]
  | succ n ih =>
    rw [loadLE, BitVec.getLsbD_or, BitVec.getLsbD_shiftLeft, ih]
    by_cases h : i < 8
    · have hq : i / 8 = 0 := by omega
      have hr : i % 8 = i := by omega
      have hlt : i < 8 * (n + 1) ∧ i < 64 := by omega
      simp [zext64, h, hq, hr, hlt]
    · have hq : (i - 8) / 8 + 1 = i / 8 := by omega
      have hr : (i - 8) % 8 = i % 8 := by omega
      have hlt : i < 64 ∧ i - 8 < 8 * n ∧ i - 8 < 64 ↔ i < 8 * (n + 1) ∧ i < 64 := by omega
      have hb : (Memory.read m a.toNat).getLsbD i = false := BitVec.getLsbD_of_ge _ _ (by omega)
      rw [add_one_add_ofNat, hq, hr]
      simp [zext64, h, hb, ← hlt, Bool.and_assoc]

/-- A byte of a read, `j` above its start, is the byte of memory there (R51). -/
theorem byte_loadLE (m : Memory) (a : Word) {n j : Nat} (hj : j < n) (hn : n ≤ 8) :
    ((loadLE m a n) >>> (8 * j)).setWidth 8 = Memory.read m (a + BitVec.ofNat 64 j).toNat := by
  apply BitVec.eq_of_getLsbD_eq
  intro i hi
  have hlt : 8 * j + i < 8 * n ∧ 8 * j + i < 64 := by omega
  have hq : (8 * j + i) / 8 = j := by omega
  have hr : (8 * j + i) % 8 = i := by omega
  rw [BitVec.getLsbD_setWidth, BitVec.getLsbD_ushiftRight, getLsbD_loadLE, hq, hr]
  simp [hi, hlt]

theorem loadLE_lt (m : Memory) (a : Word) (n : Nat) : (loadLE m a n).toNat < 2 ^ (8 * n) := by
  apply Nat.lt_pow_two_of_testBit
  intro i hi
  rw [← BitVec.getLsbD, getLsbD_loadLE, decide_eq_false (by omega), Bool.false_and]

/-- A read of `n + k` bytes at offset `j` is the read of the `k` upper bytes above that of the `n` lower ones. -/
theorem loadLE_add {m : Memory} {a : Word} {j n k l : Nat} {x : BitVec (8 * n)} {y : BitVec l}
    (hx : loadLE m (a + BitVec.ofNat 64 j) n = x.setWidth 64)
    (hy : loadLE m (a + BitVec.ofNat 64 (j + n)) k = y.setWidth 64) :
    loadLE m (a + BitVec.ofNat 64 j) (n + k) = (y ++ x).setWidth 64 := by
  apply BitVec.eq_of_getLsbD_eq
  intro i hi
  have hxi : x.getLsbD i = (loadLE m (a + BitVec.ofNat 64 j) n).getLsbD i := by
    rw [hx, BitVec.getLsbD_setWidth, decide_eq_true hi, Bool.true_and]
  have hyi : y.getLsbD (i - 8 * n) = (loadLE m (a + BitVec.ofNat 64 (j + n)) k).getLsbD (i - 8 * n) := by
    rw [hy, BitVec.getLsbD_setWidth, decide_eq_true (by omega), Bool.true_and]
  rw [BitVec.getLsbD_setWidth, decide_eq_true hi, Bool.true_and, BitVec.getLsbD_append, hxi, hyi, getLsbD_loadLE,
    getLsbD_loadLE, getLsbD_loadLE]
  by_cases h : i < 8 * n
  · have hlt : i < 8 * (n + k) := by omega
    simp only [h, hlt, if_true]
  · have hlt : i < 8 * (n + k) ∧ i < 64 ↔ i - 8 * n < 8 * k ∧ i - 8 * n < 64 := by omega
    have ha : j + i / 8 = j + n + (i - 8 * n) / 8 := by omega
    have hr : (i - 8 * n) % 8 = i % 8 := by omega
    simp only [h, hlt, if_false, BitVec.add_assoc, ← BitVec.ofNat_add, ha, hr]

theorem loadLE_one (s : State) (a : Word) : loadLE s.mem a 1 = (s.byteAt a).setWidth 64 := by
  simp [loadLE, zext64, State.byteAt]

/-- The byte `j` above `a`. -/
abbrev State.byteFrom (s : State) (a : Word) (j : Nat) : Byte := s.byteAt (a + BitVec.ofNat 64 j)

theorem loadLE_two (s : State) (a : Word) (j : Nat) : loadLE s.mem (a + BitVec.ofNat 64 j) 2 =
    (s.byteFrom a (j + 1) ++ s.byteFrom a j).setWidth 64 :=
  loadLE_add (loadLE_one s _) (loadLE_one s _)

theorem loadLE_four (s : State) (a : Word) (j : Nat) : loadLE s.mem (a + BitVec.ofNat 64 j) 4 =
    (s.byteFrom a (j + 3) ++ s.byteFrom a (j + 2) ++ (s.byteFrom a (j + 1) ++ s.byteFrom a j)).setWidth 64 :=
  loadLE_add (loadLE_two s a j) (loadLE_two s a (j + 2))

theorem loadLE_eight (s : State) (a : Word) : loadLE s.mem (a + BitVec.ofNat 64 0) 8 =
    s.byteFrom a 7 ++ s.byteFrom a 6 ++ s.byteFrom a 5 ++ s.byteFrom a 4 ++
      (s.byteFrom a 3 ++ s.byteFrom a 2 ++ (s.byteFrom a 1 ++ s.byteFrom a 0)) := by
  have upper : loadLE s.mem (a + BitVec.ofNat 64 4) (1 + (1 + (1 + 1))) = _ :=
    loadLE_add (loadLE_one s _) (loadLE_add (loadLE_one s _) (loadLE_add (loadLE_one s _) (loadLE_one s _)))
  exact (loadLE_add (k := 4) (loadLE_four s a 0) upper).trans (BitVec.setWidth_eq _)

/-! ### Canonical memories, 20_memory.md R53 -/

/-- A cell is listed in a canonical memory exactly when it is what its address reads as and that is not the value of an
unlisted byte. -/
theorem Memory.mem_iff_read {m : Memory} (hm : m.wf = true) (a : Nat) (v : Byte) :
    (a, v) ∈ m ↔ Memory.read m a = v ∧ v ≠ Config.unlistedByte := by
  rw [Memory.wf_iff] at hm
  obtain ⟨hs, hv⟩ := hm
  induction m with
  | nil => simpa [Memory.read] using fun h => h.symm
  | cons c m ih =>
    obtain ⟨k, u⟩ := c
    obtain ⟨hk, hs⟩ := List.pairwise_cons.mp hs
    have ih := ih hs fun c hc => hv c (List.mem_cons_of_mem _ hc)
    have hu : u ≠ Config.unlistedByte := (hv (k, u) List.mem_cons_self).1
    by_cases h : k = a
    · subst h
      have hnot : (k, v) ∉ m := fun hc => lt_irrefl k (hk _ hc)
      simp only [List.mem_cons, Prod.mk.injEq, true_and, hnot, or_false, Memory.read, if_true]
      exact ⟨fun e => ⟨e.symm, e ▸ hu⟩, fun e => e.1.symm⟩
    · simp only [List.mem_cons, Prod.mk.injEq, Ne.symm h, false_and, false_or, Memory.read, h, if_false, ih]

theorem Memory.pairwise_of_wf {m : Memory} (hm : m.wf = true) : m.Pairwise fun c d => c.1 < d.1 :=
  (m.wf_iff.mp hm).1

theorem Memory.nodup_of_wf {m : Memory} (hm : m.wf = true) : m.Nodup :=
  List.Pairwise.imp (S := (· ≠ ·)) (fun h e => h.ne (congrArg Prod.fst e)) (pairwise_of_wf hm)

theorem Memory.mem_of_read_eq {m m' : Memory} (hm : m.wf = true) (hm' : m'.wf = true)
    (h : ∀ a : Word, m.read a.toNat = m'.read a.toNat) {c : Host.Cell} (hc : c ∈ m) : c ∈ m' := by
  obtain ⟨hread, hv⟩ := (mem_iff_read hm c.1 c.2).mp hc
  have hlt : c.1 < 2 ^ 64 := ((m.wf_iff.mp hm).2 c hc).2
  have ha := h (BitVec.ofNat 64 c.1)
  rw [BitVec.toNat_ofNat, Nat.mod_eq_of_lt hlt, hread] at ha
  exact (mem_iff_read hm' c.1 c.2).mpr ⟨ha.symm, hv⟩

/-- Two canonical memories that read alike list the same cells, in the one rising order. -/
theorem Memory.eq_of_read_eq {m m' : Memory} (hm : m.wf = true) (hm' : m'.wf = true)
    (h : ∀ a : Word, m.read a.toNat = m'.read a.toNat) : m = m' := by
  have hperm : m.Perm m' := (List.perm_ext_iff_of_nodup (nodup_of_wf hm) (nodup_of_wf hm')).mpr fun _ =>
    ⟨mem_of_read_eq hm hm' h, mem_of_read_eq hm' hm fun a => (h a).symm⟩
  exact hperm.eq_of_pairwise (fun _ _ _ _ h1 h2 => absurd h1 (lt_asymm h2)) (pairwise_of_wf hm) (pairwise_of_wf hm')

/-! ### The bytes an instruction stores, 20_memory.md R52 -/

/-- The bytes of `t` are those of `s` with the low `n` bytes of `v` stored at `a`. -/
def StoresBytes (s t : State) (a v : Word) (n : Nat) : Prop :=
  ∀ c : Word, t.byteAt c = if (c - a).toNat < n then (v >>> (8 * (c - a).toNat)).setWidth 8 else s.byteAt c

theorem storesBytes_of_mem_eq {a v : Word} {n : Nat} (hn : n ≤ 2 ^ 64) (h : t.mem = storeLE s.mem a v n) :
    StoresBytes s t a v n := by
  intro c
  rw [State.byteAt, h, read_storeLE _ _ _ _ hn, State.byteAt]

/-- FSW stores the low word of the register as it is: the bytes above are not among the four (43_float.md R254). -/
theorem StoresBytes.of_nanUnBox {a v : Word} (h : StoresBytes s t a (zext64 (nanUnBox v)) 4) :
    StoresBytes s t a v 4 := by
  intro c
  rw [h c]
  split
  next hc =>
    apply BitVec.eq_of_getLsbD_eq
    intro i hi
    have h64 : 8 * (c - a).toNat + i < 64 := by omega
    have h32 : 8 * (c - a).toNat + i < 32 := by omega
    rw [BitVec.getLsbD_setWidth, BitVec.getLsbD_setWidth, BitVec.getLsbD_ushiftRight, BitVec.getLsbD_ushiftRight,
      zext64, nanUnBox, low32, BitVec.getLsbD_setWidth, BitVec.getLsbD_setWidth, decide_eq_true h64,
      decide_eq_true h32, Bool.true_and, Bool.true_and]
  next => rfl

/-- The store is stated at `imm'`: a compressed store keeps its immediate in another field than its full-width one. -/
theorem storesBytes_of_storeX {w : Word} {rs1 rs2 : Reg} {imm imm' : Word32} {n : Nat}
    (h : storeX w rs1 rs2 imm n s = .next t) (hi : imm' = imm) (hn : n ≤ 2 ^ 64 := by decide) :
    StoresBytes s t (effAddr (s.getX rs1) imm') (s.getX rs2) n := by
  obtain ⟨-, -, -, -, rfl⟩ := storeX_next.mp h
  rw [hi]
  exact storesBytes_of_mem_eq hn rfl

/-- An SC that ends OK and stores does so at the reserved address (42_atomics.md R223). -/
theorem storesBytes_of_storeConditional {n k : Nat} {a : Word} {rd rs1 rs2 : Reg}
    (h : storeConditional n rd rs1 rs2 s = .next t)
    (hst : (if s.resv = some (s.getX rs1) then some (s.getX rs1, n) else none) = some (a, k))
    (hn : n ≤ 2 ^ 64 := by decide) : StoresBytes s t a (s.getX rs2) k := by
  split at hst
  next hr =>
    obtain ⟨rfl, rfl⟩ := Prod.mk.inj (Option.some.inj hst)
    exact ((storeConditional_spec hn h).1 hr).2
  next => cases hst

theorem execFsw_next {rs1 rs2 : Reg} {imm : BitVec 12} :
    execFsw rs1 rs2 imm s = .next t ↔
      s.refuses (.readX rs1) = false ∧ s.refuses (.readF rs2) = false ∧
        s.refuses (.writeMem 4 (effAddr (s.getX rs1) (immI imm))) = false ∧ s.refuses .writePc = false ∧
        (s.withMem (storeLE s.mem (effAddr (s.getX rs1) (immI imm)) (zext64 (nanUnBox (s.getF rs2))) 4)).withPc
          (s.pc + 4) = t := by
  simp [execFsw]

theorem storesBytes_of_execFsw {rs1 rs2 : Reg} {imm : BitVec 12} (h : execFsw rs1 rs2 imm s = .next t) :
    StoresBytes s t (effAddr (s.getX rs1) (immI imm)) (s.getF rs2) 4 := by
  obtain ⟨-, -, -, -, rfl⟩ := execFsw_next.mp h
  exact .of_nanUnBox (storesBytes_of_mem_eq (by decide) rfl)

/-- The register a 3-bit field names, as its index (44_compressed.md R301). -/
theorem xr'_eq_ofNat (r : CReg) : xr' r = BitVec.ofNat 5 (8 + r.toNat) := by
  apply BitVec.eq_of_toNat_eq
  simp [xr']

end Sys2Proof.Machine
end

section
/-! PROOFS. Fetch: what a step fetches and runs (20_memory.md R66). -/
namespace Sys2Proof.Machine

variable {s t : State}

/-! ### The fetch, 20_memory.md R66 -/

/-- The two bytes at `a`, the lowest address least significant. -/
def State.parcelAt (s : State) (a : Word) : BitVec 16 := s.byteAt (a + 1) ++ s.byteAt a

theorem loadLE_setWidth_sixteen (s : State) (a : Word) : (loadLE s.mem a 2).setWidth 16 = s.parcelAt a := by
  have h := loadLE_two s a 0
  rw [BitVec.add_zero] at h
  rw [h, BitVec.setWidth_setWidth_of_le _ (by decide), BitVec.setWidth_eq]
  change s.byteAt (a + 1) ++ s.byteAt (a + 0#64) = s.parcelAt a
  rw [BitVec.add_zero, State.parcelAt]

theorem fetchWord_eq (s : State) : fetchWord s =
    if s.refuses (.readMem 2 s.pc) then none
    else if isRvc ((s.parcelAt s.pc).setWidth 32) then some ((s.parcelAt s.pc).setWidth 32)
    else if s.refuses (.readMem 2 (s.pc + 2)) then none
    else some (s.parcelAt (s.pc + 2) ++ s.parcelAt s.pc) := by
  simp only [fetchWord, loadLE_setWidth_sixteen]

theorem isRvc_setWidth_parcel (p : BitVec 16) : isRvc (p.setWidth 32) = true ↔ p.extractLsb 1 0 ≠ 0b11#2 := by
  have h : (p.setWidth 32).extractLsb 1 0 = p.extractLsb 1 0 := by
    apply BitVec.eq_of_toNat_eq
    have := p.isLt
    simp
  rw [isRvc, h, bne_iff_ne]
  rfl

theorem not_odd_of_pcEven (h : PcEven s) : s.pc.extractLsb 0 0 ≠ 1 := by
  intro h1
  have := congrArg BitVec.toNat h1
  unfold PcEven at h
  simp at this
  omega

theorem step_of_fetchWord_none (hpc : PcEven s) (hf : fetchWord s = none) :
    step s = .fault (.executionFailure .fetch) := by
  rw [step, fetchDecode, if_neg (not_odd_of_pcEven hpc), hf]
  rfl

theorem step_of_decode_error {w : Word32} {e : DecodeError} (hpc : PcEven s) (hf : fetchWord s = some w)
    (hd : decode w = .error e) : step s = .fault .decodeFailure := by
  simp only [step, fetchDecode, if_neg (not_odd_of_pcEven hpc), hf, hd]
  rfl

theorem step_of_decode_ok {w : Word32} {i : Instr} (hpc : PcEven s) (hf : fetchWord s = some w)
    (hd : decode w = .ok i) : step s = exec i s := by
  simp only [step, fetchDecode, if_neg (not_odd_of_pcEven hpc), hf, hd]

/-! ### The fetch of an instruction in memory, 20_memory.md R66, R67 -/

theorem bytes_append_eq_lowParcel (w : Word32) : w.extractLsb 15 8 ++ w.extractLsb 7 0 = w.extractLsb 15 0 := by
  apply BitVec.eq_of_getLsbD_eq
  intro i hi
  simp only [BitVec.getLsbD_append, BitVec.getLsbD_extractLsb]
  interval_cases i <;> rfl

theorem bytes_append_lowParcel_eq (w : Word32) :
    (w.extractLsb 31 24 ++ w.extractLsb 23 16) ++ w.extractLsb 15 0 = w := by
  apply BitVec.eq_of_getLsbD_eq
  intro i hi
  simp only [BitVec.getLsbD_append, BitVec.getLsbD_extractLsb]
  interval_cases i <;> rfl

/-- The bytes at `a` in `s` are those of `i`. -/
abbrev HoldsAt (s : State) (a : Word) (i : Instr) : Prop :=
  ∀ k b, (encodeBytes i)[k]? = some b → s.byteAt (a + BitVec.ofNat 64 k) = b

/-- The facade serves the fetch of `i` at `a`. -/
structure ServesFetch (s : State) (a : Word) (i : Instr) : Prop where
  low : s.refuses (.readMem 2 a) = false
  high : i.width = 4 → s.refuses (.readMem 2 (a + 2)) = false

theorem parcelAt_of_holdsAt {a : Word} {i : Instr} (h : HoldsAt s a i) :
    s.parcelAt a = (encode i).extractLsb 15 0 := by
  have h0 : s.byteAt (a + 0#64) = (encode i).extractLsb 7 0 := h 0 _ (by rw [encodeBytes]; split <;> rfl)
  have h1 : s.byteAt (a + 1#64) = (encode i).extractLsb 15 8 := h 1 _ (by rw [encodeBytes]; split <;> rfl)
  rw [BitVec.add_zero] at h0
  rw [State.parcelAt, h0, ← bytes_append_eq_lowParcel]
  exact congrArg (· ++ _) h1

theorem parcelAt_add_two_of_holdsAt {a : Word} {i : Instr} (h : HoldsAt s a i) (hr : isRvc (encode i) = false) :
    s.parcelAt (a + 2) = (encode i).extractLsb 31 24 ++ (encode i).extractLsb 23 16 := by
  have h2 : s.byteAt (a + 2#64) = (encode i).extractLsb 23 16 := h 2 _ (by rw [encodeBytes, hr]; rfl)
  have h3 : s.byteAt (a + 3#64) = (encode i).extractLsb 31 24 := h 3 _ (by rw [encodeBytes, hr]; rfl)
  have ha : a + 2 + 1 = a + 3#64 := by rw [BitVec.add_assoc]; rfl
  rw [State.parcelAt, ha, h3]
  exact congrArg (_ ++ ·) h2

theorem isRvc_lowParcel (w : Word32) : isRvc ((w.extractLsb 15 0).setWidth 32) = isRvc w := by
  rw [isRvc_eq_bits, isRvc_eq_bits]
  simp

/-- The fetch of an instruction in memory gives its word. -/
theorem fetchWord_of_holdsAt {i : Instr} (h : HoldsAt s s.pc i) (hs : ServesFetch s s.pc i) :
    fetchWord s = some (encode i) := by
  rw [fetchWord_eq, hs.low, parcelAt_of_holdsAt h, isRvc_lowParcel]
  cases hr : isRvc (encode i) with
  | true =>
    have hscan : ((encode i).extractLsb 15 0).setWidth 32 = encode i := by
      rw [← scanWord_of_isRvc hr, scanWord_encode]
    simp [hscan]
  | false =>
    have hw : i.width = 4 := by rw [Instr.width, hr]; rfl
    rw [hs.high hw, parcelAt_add_two_of_holdsAt h hr, bytes_append_lowParcel_eq]
    rfl

/-- A step at a well-formed instruction is its execution (R66, R397). -/
theorem step_eq_exec {i : Instr} (hi : WellFormed i = true) (hpc : PcEven s) (h : HoldsAt s s.pc i)
    (hs : ServesFetch s s.pc i) : step s = exec i s :=
  step_of_decode_ok hpc (fetchWord_of_holdsAt h hs) (decode_encode hi)

end Sys2Proof.Machine
end

section
/-! PROOFS. Memory: the statements on 20_memory.md. -/
namespace Sys2Proof.Machine

variable {s : State}

/-! ### Effective addresses and loads, 20_memory.md R58, 40_base_integer.md R151 to R157 -/

theorem effAddr_immI (b : Word) (imm : BitVec 12) : effAddr b (immI imm) = b + imm.signExtend 64 := by
  have h : (imm.signExtend 32).signExtend 64 = imm.signExtend 64 := by
    apply BitVec.eq_of_toInt_eq
    simp only [BitVec.toInt_signExtend_of_le, Nat.reduceLeDiff]
  rw [effAddr, sext64, immI, h]

/-- A load that is served gives what `ext` makes of the bytes read. -/
theorem loadX_eq_next {w a v : Word} {rd rs1 : Reg} {imm : Word32} {n : Nat} {ext : Word → Word}
    (hs : Serves s [.readX rs1, .writePc]) (hd : ServesX s rd) (ha : effAddr (s.getX rs1) imm = a)
    (hm : s.refuses (.readMem n a) = false) (hv : ext (loadLE s.mem a n) = v) :
    loadX w rd rs1 imm n ext s = .next ((s.setX rd v).withPc (s.pc + w)) := by
  subst ha hv
  exact loadX_next.mpr ⟨hs _ (by simp), hm, hd, hs _ (by simp), rfl⟩

/-! ### Stores that are served, 40_base_integer.md R158 to R161, 43_float.md R254 -/

theorem exists_mem_of_storeX {w a : Word} {rs1 rs2 : Reg} {imm : Word32} {n : Nat}
    (ha : effAddr (s.getX rs1) imm = a) (hs : Serves s [.readX rs1, .readX rs2, .writeMem n a, .writePc])
    (hn : n ≤ 2 ^ 64 := by decide) :
    ∃ m, storeX w rs1 rs2 imm n s = .next ((s.withMem m).withPc (s.pc + w)) ∧
      StoresBytes s (s.withMem m) a (s.getX rs2) n := by
  subst ha
  obtain ⟨h1, h2, hm, hpc, -⟩ : _ ∧ _ ∧ _ ∧ _ := by simpa only [Serves, List.forall_mem_cons] using hs
  exact ⟨_, storeX_next.mpr ⟨h1, h2, hm, hpc, rfl⟩, storesBytes_of_mem_eq hn rfl⟩

theorem exists_mem_of_execFsw {a : Word} {rs1 rs2 : Reg} {imm : BitVec 12}
    (ha : effAddr (s.getX rs1) (immI imm) = a) (hs : Serves s [.readX rs1, .readF rs2, .writeMem 4 a, .writePc]) :
    ∃ m, execFsw rs1 rs2 imm s = .next ((s.withMem m).withPc (s.pc + 4)) ∧
      StoresBytes s (s.withMem m) a (s.getF rs2) 4 := by
  subst ha
  obtain ⟨h1, h2, hm, hpc, -⟩ : _ ∧ _ ∧ _ ∧ _ := by simpa only [Serves, List.forall_mem_cons] using hs
  exact ⟨_, execFsw_next.mpr ⟨h1, h2, hm, hpc, rfl⟩, .of_nanUnBox (storesBytes_of_mem_eq (by decide) rfl)⟩

/-! ### Misaligned atomics, 20_memory.md R55 -/

theorem loadReserved_misaligned {m n : Nat} {rd rs1 : Reg} (hs : ∀ r, s.refuses (.readX r) = false)
    (ha : (s.getX rs1).toNat % n ≠ 0) :
    loadReserved m n rd rs1 s = .fault (.executionFailure .misalignedAtomic) :=
  readX_fault.mpr <| .inr ⟨hs rs1, requireAligned_fault.mpr <| .inl ⟨ha, rfl⟩⟩

theorem storeConditional_misaligned {n : Nat} {rd rs1 rs2 : Reg} (hs : ∀ r, s.refuses (.readX r) = false)
    (ha : (s.getX rs1).toNat % n ≠ 0) :
    storeConditional n rd rs1 rs2 s = .fault (.executionFailure .misalignedAtomic) :=
  readX_fault.mpr <| .inr ⟨hs rs1, readX_fault.mpr <| .inr ⟨hs rs2, requireAligned_fault.mpr <| .inl ⟨ha, rfl⟩⟩⟩

theorem amo_misaligned {m n : Nat} {g : BitVec m → BitVec m → BitVec m} {rd rs1 rs2 : Reg}
    (hs : ∀ r, s.refuses (.readX r) = false) (ha : (s.getX rs1).toNat % n ≠ 0) :
    amo m n g rd rs1 rs2 s = .fault (.executionFailure .misalignedAtomic) :=
  readX_fault.mpr <| .inr ⟨hs rs1, readX_fault.mpr <| .inr ⟨hs rs2, requireAligned_fault.mpr <| .inl ⟨ha, rfl⟩⟩⟩

/-! ### The statements -/

/-- Settles O10: the fetch gives the instruction's word, and the decoder reads it back. -/
theorem stepRunsDecodedInstruction : Obligations.StepRunsDecodedInstruction :=
  fun _ _ hi hpc hb hlow hhigh => step_eq_exec hi hpc hb ⟨hlow, hhigh⟩

/-- Settles O11, by the branches of the fetch. -/
theorem fetchReadsParcels : Obligations.FetchReadsParcels := by
  intro s hpc lo hi long
  have hlo : lo = s.parcelAt s.pc := rfl
  have hhi : hi = s.parcelAt (s.pc + 2) := by
    rw [State.parcelAt, BitVec.add_assoc]
    rfl
  have hlong : long ↔ ¬ isRvc ((s.parcelAt s.pc).setWidth 32) = true := by
    rw [isRvc_setWidth_parcel, not_not]
    exact Iff.rfl
  rw [hlong, not_not, hlo, hhi]
  refine ⟨fun h => step_of_fetchWord_none hpc ?_, fun h hs => ?_, fun h hl h' => step_of_fetchWord_none hpc ?_,
    fun h hl h' => ?_, fun w hw e he => step_of_decode_error hpc hw he⟩ <;> rw [fetchWord_eq]
  · rw [h]; rfl
  · rw [h, hs]; rfl
  · simp only [h, hl, h', if_true, if_false, Bool.false_eq_true]
  · simp only [h, hl, h', if_false, Bool.false_eq_true]

/-- Settles O12: the stored bytes are in memory, where the next fetch finds the instruction. -/
theorem storedInstructionRunsNext : Obligations.StoredInstructionRunsNext := by
  intro s t rd rs1 rs2 rs1' rs2' imm u k q j v r hj hpc h i a n hi hst hb hlow hhigh
  have hbytes : StoresBytes s t a v n := by
    have hr : r = xr' rs2' := (xr'_eq_ofNat rs2').symm
    simp only [hr, List.mem_cons, Prod.mk.injEq, List.not_mem_nil, or_false] at hj
    obtain ⟨rfl, rfl⟩ | ⟨rfl, rfl⟩ | ⟨rfl, rfl⟩ | ⟨rfl, rfl⟩ | ⟨rfl, rfl⟩ | ⟨rfl, rfl⟩ | ⟨rfl, rfl⟩ | ⟨rfl, rfl⟩ |
      ⟨rfl, rfl⟩ | ⟨rfl, rfl⟩ | ⟨rfl, rfl⟩ := hj
    iterate 4 · cases hst; exact storesBytes_of_storeX h rfl
    · cases hst; exact storesBytes_of_execFsw h
    iterate 2 · exact storesBytes_of_storeConditional h hst
    iterate 4 · cases hst; exact storesBytes_of_storeX h (immI_setWidth (by decide) _)
  have hfacade : ∀ x, t.refuses x = s.refuses x := fun x => by
    rw [State.refuses, (exec_bounds h).facade, State.refuses]
  exact step_eq_exec hi (exec_pcEven h hpc) (fun l b hl => (hbytes _).trans (hb l b hl))
    ⟨(hfacade _).trans hlow, fun hw => (hfacade _).trans (hhigh hw)⟩

/-- Settles O24, from the bits of the read. -/
theorem memReadIsLittleEndian : Obligations.MemReadIsLittleEndian := by
  intro s a n hn
  have hn8 : n ≤ 8 := by
    simp only [List.mem_cons, List.not_mem_nil, or_false] at hn
    omega
  exact ⟨loadLE s.mem a n, fun _ hj => byte_loadLE _ _ hj hn8, loadLE_lt _ _ _, fun _ => rfl⟩

/-- Settles O25, from the bytes of memory after a store. -/
theorem memWriteChangesItsBytes : Obligations.MemWriteChangesItsBytes := by
  intro s a v n hn
  have hn64 : n ≤ 2 ^ 64 := by
    simp only [List.mem_cons, List.not_mem_nil, or_false] at hn
    omega
  exact ⟨storeLE s.mem a v n, storesBytes_of_mem_eq (t := s.withMem _) hn64 rfl, fun _ => rfl⟩

/-- Settles O26, from the cells a canonical memory lists. -/
theorem memoryCanonical : Obligations.MemoryCanonical :=
  ⟨fun _ _ hm hm' h => Memory.eq_of_read_eq hm hm' h, fun m a v n hm => storeLE_wf m a v n hm⟩

/-- Settles O28, read off the footprint. -/
theorem memoryFrame : Obligations.MemoryFrame := by
  intro i s t h
  have hb := exec_bounds h
  cases hs : i.store s with
  | none => exact hb.memKept hs
  | some an =>
    obtain ⟨v, hv⟩ := hb.memStored _ _ hs
    intro b hn
    rw [State.byteAt, hv, read_storeLE _ _ _ _ (hn.trans (b - an.1).isLt.le), if_neg (Nat.not_lt.mpr hn)]
    rfl

/-- Settles O36, from the bytes of a read. -/
theorem loadResults : Obligations.LoadResults := by
  intro s rd rs1 imm hs hd a b h w puts
  have ha : effAddr (s.getX rs1) (immI imm) = a + BitVec.ofNat 64 0 :=
    (effAddr_immI _ _).trans (BitVec.add_zero a).symm
  have h1 : loadLE s.mem (a + BitVec.ofNat 64 0) 1 = (b 0).setWidth 64 := loadLE_one s _
  have h2 : loadLE s.mem (a + BitVec.ofNat 64 0) 2 = h.setWidth 64 := loadLE_two s a 0
  have h4 : loadLE s.mem (a + BitVec.ofNat 64 0) 4 = w.setWidth 64 := loadLE_four s a 0
  have h8 : loadLE s.mem (a + BitVec.ofNat 64 0) 8 = _ := loadLE_eight s a
  have trunc {n : Nat} (hn : n ≤ 64) (x : BitVec n) : (x.setWidth 64).setWidth n = x := by
    rw [BitVec.setWidth_setWidth_of_le _ hn, BitVec.setWidth_eq]
  rw [← BitVec.add_zero a]
  refine ⟨fun hm => ⟨?_, ?_⟩, fun hm => ⟨?_, ?_⟩, fun hm => ⟨?_, ?_⟩, fun hm => ?_⟩
  · exact loadX_eq_next hs hd ha hm (by rw [h1, trunc (by decide)]; rfl)
  · exact loadX_eq_next hs hd ha hm h1
  · exact loadX_eq_next hs hd ha hm (by rw [h2, trunc (by decide)]; rfl)
  · exact loadX_eq_next hs hd ha hm h2
  · exact loadX_eq_next hs hd ha hm (by rw [h4, low32, trunc (by decide)]; rfl)
  · exact loadX_eq_next hs hd ha hm h4
  · exact loadX_eq_next hs hd ha hm h8

/-- Settles O37, from the bytes of memory after a store. -/
theorem storeResults : Obligations.StoreResults := by
  intro s rs1 rs2 imm a i n src v hi hs
  simp only [List.mem_cons, Prod.mk.injEq, List.not_mem_nil, or_false] at hi
  obtain ⟨rfl, rfl, rfl, rfl⟩ | ⟨rfl, rfl, rfl, rfl⟩ | ⟨rfl, rfl, rfl, rfl⟩ | ⟨rfl, rfl, rfl, rfl⟩ |
    ⟨rfl, rfl, rfl, rfl⟩ := hi
  iterate 4 · exact exists_mem_of_storeX (effAddr_immI _ _) hs
  · exact exists_mem_of_execFsw (effAddr_immI _ _) hs

/-- Settles O43, by the three shapes of an atomic. -/
theorem misalignedAtomicsFail : Obligations.MisalignedAtomicsFail := by
  intro i s r n hi hs ha
  cases i with
  | lrW | lrD => cases hi; exact loadReserved_misaligned hs ha
  | scW | scD => cases hi; exact storeConditional_misaligned hs ha
  | amoswapW | amoaddW | amoxorW | amoandW | amoorW | amominW | amomaxW | amominuW | amomaxuW | amoswapD | amoaddD
  | amoxorD | amoandD | amoorD | amominD | amomaxD | amominuD | amomaxuD => cases hi; exact amo_misaligned hs ha
  | _ => cases hi

end Sys2Proof.Machine
end

section
/-! PROOFS. Block: the block's output, and the words of the overlapping entries (30_encoding.md R81, R105 to R107). -/
namespace Sys2Proof

open Machine (isRvc_lowParcel)

/-! ### The length and the word of the scan, R81 -/

theorem isRvc_eq_decide (w : Word32) : isRvc w = decide (w.extractLsb 1 0 ≠ 0b11#2) := by
  rw [isRvc, bne, beq_eq_decide, decide_not]
  rfl

theorem isRvc_scanWord (w : Word32) : isRvc (scanWord w) = isRvc w := by
  rw [scanWord]
  split
  · exact isRvc_lowParcel w
  · rfl

/-- Bits 31:16 of a compressed input word do not matter to the block. -/
theorem decodeBlock_scanWord (w : Word32) : decodeBlock (scanWord w) = decodeBlock w := by
  simp only [decodeBlock, decode_scanWord, scanWord_scanWord, isRvc_scanWord]

theorem scanWord_eq_of_lowParcel_eq {w w' : Word32} (hw : isRvc w = true) (h : w.extractLsb 15 0 = w'.extractLsb 15 0) :
    scanWord w = scanWord w' := by
  have hw' : isRvc w' = true := by rw [← isRvc_lowParcel, ← h, isRvc_lowParcel, hw]
  rw [scanWord_of_isRvc hw, scanWord_of_isRvc hw', h]

/-! ### The output of the scan, R105, R112 -/

theorem Entry.hits_eq_false_iff {e : Entry} {w : Word32} : e.hits w = false ↔ w &&& e.mask ≠ e.eigen := by
  rw [Entry.hits, beq_eq_false_iff_ne]

/-- The index that the block puts out is that of the entry whose decode function it runs. -/
theorem firstMatch_eq_of_findIdx? {w : Word32} {k : Nat} (h : patternTable.findIdx? (·.hits w) = some k) :
    firstMatch w = patternTable[k]? := by
  obtain ⟨hk, hhit, hfirst⟩ := List.findIdx?_eq_some_iff_getElem.mp h
  rw [List.getElem?_eq_getElem hk]
  exact List.find?_eq_some_iff_getElem.mpr ⟨hhit, k, hk, rfl, fun j hj => by simpa using hfirst j hj⟩

theorem decodeBlock_of_findIdx?_eq_some {w : Word32} {k : Nat} {e : Entry}
    (h : patternTable.findIdx? (·.hits (scanWord w)) = some k) (hk : patternTable[k]? = some e) :
    decodeBlock w =
      { inst := (e.build (scanWord w)).variant (scanWord w), raw := scanWord w, isRvc := isRvc w,
        pattern := some k } := by
  simp only [decodeBlock, decode, firstMatch_eq_of_findIdx? h, hk, h]

theorem decodeBlock_of_findIdx?_eq_none {w : Word32} (h : patternTable.findIdx? (·.hits (scanWord w)) = none) :
    decodeBlock w = { inst := .invalid (scanWord w), raw := scanWord w, isRvc := isRvc w, pattern := none } := by
  have hfirst : firstMatch (scanWord w) = none :=
    List.find?_eq_none.mpr fun e he => by simp [List.findIdx?_eq_none_iff.mp h e he]
  simp only [decodeBlock, decode, hfirst, h]

/-! ### The words of two overlapping entries, R106 -/

/-- Two masked comparisons that agree where both look are one comparison under the joined mask. -/
theorem and_eq_and_and_eq_iff {w m m' v v' : Word32} (h : (v ||| v') &&& m = v) (h' : (v ||| v') &&& m' = v') :
    w &&& m = v ∧ w &&& m' = v' ↔ w &&& (m ||| m') = v ||| v' := by
  constructor
  · rintro ⟨rfl, rfl⟩
    exact BitVec.and_or_distrib_left
  · intro hw
    have absorb (x y : Word32) : (x ||| y) &&& x = x := by
      ext
      simp +contextual
    exact ⟨by rw [← absorb m m', ← BitVec.and_assoc, hw, h],
      by rw [← absorb m' m, BitVec.or_comm m', ← BitVec.and_assoc, hw, h']⟩

/-- The overlapping pairs of R106 with the mask and the value of the words they share. -/
def overlaps : List (Nat × Nat × Word32 × Word32) :=
  [(120, 121, 0x0000FFFF, 0x00000001), (124, 125, 0x0000EF83, 0x00006101), (141, 142, 0x0000F07F, 0x00008002),
   (143, 144, 0x0000FFFF, 0x00009002), (143, 145, 0x0000FFFF, 0x00009002), (144, 145, 0x0000F07F, 0x00009002)]

theorem exists_mem_overlaps {a b : Nat} (h : (a, b) ∈ overlappingIndices) : ∃ m v, (a, b, m, v) ∈ overlaps := by
  have hmap : (a, b) ∈ overlaps.map fun p => (p.1, p.2.1) := h
  obtain ⟨⟨_, _, m, v⟩, hp, hab⟩ := List.mem_map.mp hmap
  cases hab
  exact ⟨m, v, hp⟩

/-- A pair's mask and value join those of its entries. -/
theorem hits_and_hits_iff_of_mem_overlaps {a b : Nat} {m v w : Word32} {e e' : Entry} (h : (a, b, m, v) ∈ overlaps)
    (ha : patternTable[a]? = some e) (hb : patternTable[b]? = some e') :
    w &&& e.mask = e.eigen ∧ w &&& e'.mask = e'.eigen ↔ w &&& m = v := by
  simp only [overlaps, List.mem_cons, Prod.mk.injEq, List.not_mem_nil, or_false] at h
  obtain ⟨rfl, rfl, rfl, rfl⟩ | ⟨rfl, rfl, rfl, rfl⟩ | ⟨rfl, rfl, rfl, rfl⟩ | ⟨rfl, rfl, rfl, rfl⟩ |
    ⟨rfl, rfl, rfl, rfl⟩ | ⟨rfl, rfl, rfl, rfl⟩ := h <;>
  · obtain rfl := Option.some.inj ha
    obtain rfl := Option.some.inj hb
    exact and_eq_and_and_eq_iff rfl rfl

/-! ### The statements -/

/-- Settles O2: the entry that takes a well-formed instruction's word first is its own. -/
theorem decodeOfEncode : Obligations.DecodeOfEncode := fun _ hi => decode_encode hi

/-- Settles O4, by what the scan for the index gives. -/
theorem decoderTakesFirstMatch : Obligations.DecoderTakesFirstMatch := by
  intro w rvc raw
  have hrvc : rvc = isRvc w := (isRvc_eq_decide w).symm
  have hraw : raw = scanWord w := by
    change (if rvc = true then _ else _) = _
    rw [hrvc, scanWord]
  rw [hrvc, hraw]
  cases h : patternTable.findIdx? (·.hits (scanWord w)) with
  | none =>
    refine .inr ⟨fun e he => ?_, decodeBlock_of_findIdx?_eq_none h⟩
    exact Entry.hits_eq_false_iff.mp (List.findIdx?_eq_none_iff.mp h e he)
  | some k =>
    obtain ⟨hk, hhit, hfirst⟩ := List.findIdx?_eq_some_iff_getElem.mp h
    have hget : patternTable[k]? = some patternTable[k] := List.getElem?_eq_getElem hk
    refine .inl ⟨k, _, hget, Entry.hits_iff.mp hhit, fun j e' hj hj' => ?_, decodeBlock_of_findIdx?_eq_some h hget⟩
    obtain ⟨_, rfl⟩ := List.getElem?_eq_some_iff.mp hj'
    exact fun heq => hfirst j hj (Entry.hits_iff.mpr heq)

/-- Settles O5: entries that share a word are a pair of R106, whose words its joined mask and value say. -/
theorem overlappingPairs : Obligations.OverlappingPairs := by
  intro a b e e' w hab ha hb
  constructor
  · intro hw
    obtain ⟨m, v, hmv⟩ := exists_mem_overlaps <|
      mem_overlappingIndices hab ha hb (Entry.hits_iff.mpr hw.1) (Entry.hits_iff.mpr hw.2)
    exact ⟨m, v, hmv, (hits_and_hits_iff_of_mem_overlaps hmv ha hb).mp hw⟩
  · rintro ⟨m, v, hmv, hw⟩
    exact (hits_and_hits_iff_of_mem_overlaps hmv ha hb).mpr hw

/-- Settles O6: the block's output depends on the word of the scan alone. -/
theorem upperHalfOfParcelIgnored : Obligations.UpperHalfOfParcelIgnored := by
  intro w
  refine ⟨isRvc_eq_decide w, ?_, fun w' hw h => ?_⟩
  · change scanWord w = _
    simp only [scanWord, isRvc_eq_decide, decide_eq_true_eq, ite_not]
  · have hw : isRvc w = true := by rw [isRvc_eq_decide, decide_eq_true hw]
    rw [← decodeBlock_scanWord w, ← decodeBlock_scanWord w', scanWord_eq_of_lowParcel_eq hw h]

end Sys2Proof
end

section
/-! PROOFS. Rebuild: a word that an entry takes is the encoding of what the entry reads from it (30_encoding.md R81, R92,
R98, R104): the entry's mask fixes the bits of the format that no field holds. -/
namespace Sys2Proof

variable {w v : Word32}

/-! ### A format filled with a word's own fields is the word, R92 -/

theorem encU_fields {op : BitVec 7} (ho : w.extractLsb 6 0 = op) :
    encU (fImmU w) (fRd w) op = w := by
  subst_vars
  apply BitVec.eq_of_getLsbD_eq
  intro i hi
  simp only [encU_bit, BitVec.getLsbD_append, BitVec.getLsbD_extractLsb, fImmU, fRd]
  interval_cases i <;> rfl

theorem encJ_fields {op : BitVec 7} (ho : w.extractLsb 6 0 = op) :
    encJ (fImmJ w) (fRd w) op = w := by
  subst_vars
  apply BitVec.eq_of_getLsbD_eq
  intro i hi
  simp only [encJ_bit, BitVec.getLsbD_append, BitVec.getLsbD_extractLsb, fImmJ_bit, fRd]
  interval_cases i <;> rfl

theorem encR_fields {f7 : BitVec 7} {rs2 : Reg} {f3 : BitVec 3} {op : BitVec 7}
    (h7 : fFunct7 w = f7) (h2 : fRs2 w = rs2) (h3 : fFunct3 w = f3) (ho : w.extractLsb 6 0 = op) :
    encR f7 rs2 (fRs1 w) f3 (fRd w) op = w := by
  subst_vars
  apply BitVec.eq_of_getLsbD_eq
  intro i hi
  simp only [encR_bit, BitVec.getLsbD_append, BitVec.getLsbD_extractLsb, fFunct7, fRs2, fRs1, fFunct3, fRd]
  interval_cases i <;> rfl

theorem encA_fields {f5 : BitVec 5} {rs2 : Reg} {f3 : BitVec 3} {op : BitVec 7}
    (h5 : fRs3 w = f5) (h2 : fRs2 w = rs2) (h3 : fFunct3 w = f3) (ho : w.extractLsb 6 0 = op) :
    encA f5 (fAqRl w) rs2 (fRs1 w) f3 (fRd w) op = w := by
  subst_vars
  apply BitVec.eq_of_getLsbD_eq
  intro i hi
  simp only [encA_bit, BitVec.getLsbD_append, BitVec.getLsbD_extractLsb, fRs3, fAqRl, fRs2, fRs1, fFunct3, fRd]
  interval_cases i <;> rfl

theorem encR4_fields {fmt : BitVec 2} {op : BitVec 7} (hf : fFunct2 w = fmt) (ho : w.extractLsb 6 0 = op) :
    encR4 (fRs3 w) fmt (fRs2 w) (fRs1 w) (fRm w) (fRd w) op = w := by
  subst_vars
  apply BitVec.eq_of_getLsbD_eq
  intro i hi
  simp only [encR4_bit, BitVec.getLsbD_append, BitVec.getLsbD_extractLsb, fRs3, fFunct2, fRs2, fRs1, fRm, fRd]
  interval_cases i <;> rfl

theorem encI_fields {f3 : BitVec 3} {op : BitVec 7} (h3 : fFunct3 w = f3) (ho : w.extractLsb 6 0 = op) :
    encI (fImmI w) (fRs1 w) f3 (fRd w) op = w := by
  subst_vars
  apply BitVec.eq_of_getLsbD_eq
  intro i hi
  simp only [encI_bit, BitVec.getLsbD_append, BitVec.getLsbD_extractLsb, fImmI, fRs1, fFunct3, fRd]
  interval_cases i <;> rfl

theorem encSh6_fields {f6 : BitVec 6} {f3 : BitVec 3} {op : BitVec 7}
    (h6 : w.extractLsb 31 26 = f6) (h3 : fFunct3 w = f3) (ho : w.extractLsb 6 0 = op) :
    encSh6 f6 (fShamt6 w) (fRs1 w) f3 (fRd w) op = w := by
  subst_vars
  apply BitVec.eq_of_getLsbD_eq
  intro i hi
  simp only [encSh6_bit, BitVec.getLsbD_append, BitVec.getLsbD_extractLsb, fShamt6, fRs1, fFunct3, fRd]
  interval_cases i <;> rfl

theorem encS_fields {f3 : BitVec 3} {op : BitVec 7} (h3 : fFunct3 w = f3) (ho : w.extractLsb 6 0 = op) :
    encS (fImmS w) (fRs2 w) (fRs1 w) f3 op = w := by
  subst_vars
  apply BitVec.eq_of_getLsbD_eq
  intro i hi
  simp only [encS_bit, BitVec.getLsbD_append, BitVec.getLsbD_extractLsb, fImmS_bit, fRs2, fRs1, fFunct3]
  interval_cases i <;> rfl

theorem encB_fields {f3 : BitVec 3} {op : BitVec 7} (h3 : fFunct3 w = f3) (ho : w.extractLsb 6 0 = op) :
    encB (fImmB w) (fRs2 w) (fRs1 w) f3 op = w := by
  subst_vars
  apply BitVec.eq_of_getLsbD_eq
  intro i hi
  simp only [encB_bit, BitVec.getLsbD_append, BitVec.getLsbD_extractLsb, fImmB_bit, fRs2, fRs1, fFunct3]
  interval_cases i <;> rfl

/-! ### A compressed format filled with a parcel's own fields is the parcel, R98 -/

theorem encCR_fields {f4 : BitVec 4} {rs2 : Reg} {op : BitVec 2}
    (h4 : w.extractLsb 15 12 = f4) (h2 : cRs2 w = rs2) (ho : w.extractLsb 1 0 = op) :
    encCR f4 (cRd w) rs2 op = w.extractLsb 15 0 := by
  subst_vars
  apply BitVec.eq_of_getLsbD_eq
  intro i hi
  simp only [encCR_bit, BitVec.getLsbD_append, BitVec.getLsbD_extractLsb, cRd, cRs2]
  interval_cases i <;> rfl

theorem encCI_cImm6 {f3 : BitVec 3} {op : BitVec 2} (h3 : w.extractLsb 15 13 = f3) (ho : w.extractLsb 1 0 = op) :
    encCI f3 ((cImm6 w).extractLsb 5 5) (cRd w) ((cImm6 w).extractLsb 4 0) op = w.extractLsb 15 0 := by
  subst_vars
  apply BitVec.eq_of_getLsbD_eq
  intro i hi
  simp only [encCI_bit, BitVec.getLsbD_append, BitVec.getLsbD_extractLsb, cRd, cImm6_bit]
  interval_cases i <;> rfl

theorem encCI_cImm16spField {f3 : BitVec 3} {r : Reg} {op : BitVec 2}
    (h3 : w.extractLsb 15 13 = f3) (hr : cRd w = r) (ho : w.extractLsb 1 0 = op) :
    encCI f3 ((cImm16spField w).extractLsb 5 5) r (sc16sp (cImm16spField w)) op = w.extractLsb 15 0 := by
  subst_vars
  apply BitVec.eq_of_getLsbD_eq
  intro i hi
  simp only [encCI_bit, BitVec.getLsbD_append, BitVec.getLsbD_extractLsb, cRd, cImm16spField_bit, sc16sp_bit]
  interval_cases i <;> rfl

theorem encCI_cUimmLWSP {f3 : BitVec 3} {op : BitVec 2} (h3 : w.extractLsb 15 13 = f3) (ho : w.extractLsb 1 0 = op) :
    encCI f3 ((cUimmLWSP w).extractLsb 3 3) (cRd w) (scLWSP (cUimmLWSP w)) op = w.extractLsb 15 0 := by
  subst_vars
  apply BitVec.eq_of_getLsbD_eq
  intro i hi
  simp only [encCI_bit, BitVec.getLsbD_append, BitVec.getLsbD_extractLsb, cRd, cUimmLWSP_bit, scLWSP_bit]
  interval_cases i <;> rfl

theorem encCI_cUimmLDSP {f3 : BitVec 3} {op : BitVec 2} (h3 : w.extractLsb 15 13 = f3) (ho : w.extractLsb 1 0 = op) :
    encCI f3 ((cUimmLDSP w).extractLsb 2 2) (cRd w) (scLDSP (cUimmLDSP w)) op = w.extractLsb 15 0 := by
  subst_vars
  apply BitVec.eq_of_getLsbD_eq
  intro i hi
  simp only [encCI_bit, BitVec.getLsbD_append, BitVec.getLsbD_extractLsb, cRd, cUimmLDSP_bit, scLDSP_bit]
  interval_cases i <;> rfl

theorem encCSS_cUimmSWSP {f3 : BitVec 3} {op : BitVec 2} (h3 : w.extractLsb 15 13 = f3) (ho : w.extractLsb 1 0 = op) :
    encCSS f3 (scSWSP (cUimmSWSP w)) (cRs2 w) op = w.extractLsb 15 0 := by
  subst_vars
  apply BitVec.eq_of_getLsbD_eq
  intro i hi
  simp only [encCSS_bit, BitVec.getLsbD_append, BitVec.getLsbD_extractLsb, cRs2, cUimmSWSP_bit, scSWSP_bit]
  interval_cases i <;> rfl

theorem encCSS_cUimmSDSP {f3 : BitVec 3} {op : BitVec 2} (h3 : w.extractLsb 15 13 = f3) (ho : w.extractLsb 1 0 = op) :
    encCSS f3 (scSDSP (cUimmSDSP w)) (cRs2 w) op = w.extractLsb 15 0 := by
  subst_vars
  apply BitVec.eq_of_getLsbD_eq
  intro i hi
  simp only [encCSS_bit, BitVec.getLsbD_append, BitVec.getLsbD_extractLsb, cRs2, cUimmSDSP_bit, scSDSP_bit]
  interval_cases i <;> rfl

theorem encCIW_cUimmCIW {f3 : BitVec 3} {op : BitVec 2} (h3 : w.extractLsb 15 13 = f3) (ho : w.extractLsb 1 0 = op) :
    encCIW f3 (scCIW (cUimmCIW w)) (cRd' w) op = w.extractLsb 15 0 := by
  subst_vars
  apply BitVec.eq_of_getLsbD_eq
  intro i hi
  simp only [encCIW_bit, BitVec.getLsbD_append, BitVec.getLsbD_extractLsb, cRd', cUimmCIW_bit, scCIW_bit]
  interval_cases i <;> rfl

theorem encCL_cUimmLW {f3 : BitVec 3} {op : BitVec 2} (h3 : w.extractLsb 15 13 = f3) (ho : w.extractLsb 1 0 = op) :
    encCL f3 (scLW (cUimmLW w)) (cRs1' w) (cRd' w) op = w.extractLsb 15 0 := by
  subst_vars
  apply BitVec.eq_of_getLsbD_eq
  intro i hi
  simp only [encCL_bit, BitVec.getLsbD_append, BitVec.getLsbD_extractLsb, cRs1', cRd', cUimmLW_bit, scLW_bit]
  interval_cases i <;> rfl

theorem encCL_cUimmLD {f3 : BitVec 3} {op : BitVec 2} (h3 : w.extractLsb 15 13 = f3) (ho : w.extractLsb 1 0 = op) :
    encCL f3 (scLD (cUimmLD w)) (cRs1' w) (cRd' w) op = w.extractLsb 15 0 := by
  subst_vars
  apply BitVec.eq_of_getLsbD_eq
  intro i hi
  simp only [encCL_bit, BitVec.getLsbD_append, BitVec.getLsbD_extractLsb, cRs1', cRd', cUimmLD_bit, scLD_bit]
  interval_cases i <;> rfl

theorem encCA_fields {f6 : BitVec 6} {f2 op : BitVec 2}
    (h6 : w.extractLsb 15 10 = f6) (h2 : w.extractLsb 6 5 = f2) (ho : w.extractLsb 1 0 = op) :
    encCA f6 (cRs1' w) f2 (cRs2' w) op = w.extractLsb 15 0 := by
  subst_vars
  apply BitVec.eq_of_getLsbD_eq
  intro i hi
  simp only [encCA_bit, BitVec.getLsbD_append, BitVec.getLsbD_extractLsb, cRs1', cRs2']
  interval_cases i <;> rfl

theorem encCBa_cImm6 {f3 : BitVec 3} {f2 op : BitVec 2}
    (h3 : w.extractLsb 15 13 = f3) (h2 : w.extractLsb 11 10 = f2) (ho : w.extractLsb 1 0 = op) :
    encCBa f3 ((cImm6 w).extractLsb 5 5) f2 (cRs1' w) ((cImm6 w).extractLsb 4 0) op = w.extractLsb 15 0 := by
  subst_vars
  apply BitVec.eq_of_getLsbD_eq
  intro i hi
  simp only [encCBa_bit, BitVec.getLsbD_append, BitVec.getLsbD_extractLsb, cRs1', cImm6_bit]
  interval_cases i <;> rfl

theorem encCB_cOffB {f3 : BitVec 3} {op : BitVec 2} (h3 : w.extractLsb 15 13 = f3) (ho : w.extractLsb 1 0 = op) :
    encCB f3 (scBhi (cOffB w)) (cRs1' w) (scBlo (cOffB w)) op = w.extractLsb 15 0 := by
  subst_vars
  apply BitVec.eq_of_getLsbD_eq
  intro i hi
  simp only [encCB_bit, BitVec.getLsbD_append, BitVec.getLsbD_extractLsb, cRs1', cOffB_bit, scBhi_bit, scBlo_bit]
  interval_cases i <;> rfl

theorem encCJ_cOffJ {f3 : BitVec 3} {op : BitVec 2} (h3 : w.extractLsb 15 13 = f3) (ho : w.extractLsb 1 0 = op) :
    encCJ f3 (scJ (cOffJ w)) op = w.extractLsb 15 0 := by
  subst_vars
  apply BitVec.eq_of_getLsbD_eq
  intro i hi
  simp only [encCJ_bit, BitVec.getLsbD_append, BitVec.getLsbD_extractLsb, cOffJ_bit, scJ_bit]
  interval_cases i <;> rfl

/-! ### Where a mask fixes the bits that are not fields, the eigen gives them, R101 -/

theorem encU_of_mask7F (w : Word32) (h : w &&& 0x0000007F = v) : encU (fImmU w) (fRd w) (v.extractLsb 6 0) = w :=
  encU_fields (extractLsb_of_and_eq h rfl)

theorem encJ_of_mask7F (w : Word32) (h : w &&& 0x0000007F = v) : encJ (fImmJ w) (fRd w) (v.extractLsb 6 0) = w :=
  encJ_fields (extractLsb_of_and_eq h rfl)

theorem encI_of_mask707F (w : Word32) (h : w &&& 0x0000707F = v) :
    encI (fImmI w) (fRs1 w) (fFunct3 v) (fRd w) (v.extractLsb 6 0) = w :=
  encI_fields (extractLsb_of_and_eq h rfl) (extractLsb_of_and_eq h rfl)

theorem encS_of_mask707F (w : Word32) (h : w &&& 0x0000707F = v) :
    encS (fImmS w) (fRs2 w) (fRs1 w) (fFunct3 v) (v.extractLsb 6 0) = w :=
  encS_fields (extractLsb_of_and_eq h rfl) (extractLsb_of_and_eq h rfl)

theorem encB_of_mask707F (w : Word32) (h : w &&& 0x0000707F = v) :
    encB (fImmB w) (fRs2 w) (fRs1 w) (fFunct3 v) (v.extractLsb 6 0) = w :=
  encB_fields (extractLsb_of_and_eq h rfl) (extractLsb_of_and_eq h rfl)

theorem encSh6_of_maskFC00707F (w : Word32) (h : w &&& 0xFC00707F = v) :
    encSh6 (v.extractLsb 31 26) (fShamt6 w) (fRs1 w) (fFunct3 v) (fRd w) (v.extractLsb 6 0) = w :=
  encSh6_fields (extractLsb_of_and_eq h rfl) (extractLsb_of_and_eq h rfl) (extractLsb_of_and_eq h rfl)

theorem encR_of_maskFE00707F (w : Word32) (h : w &&& 0xFE00707F = v) :
    encR (fFunct7 v) (fRs2 w) (fRs1 w) (fFunct3 v) (fRd w) (v.extractLsb 6 0) = w :=
  encR_fields (extractLsb_of_and_eq h rfl) rfl (extractLsb_of_and_eq h rfl) (extractLsb_of_and_eq h rfl)

theorem encR_of_maskFE00007F (w : Word32) (h : w &&& 0xFE00007F = v) :
    encR (fFunct7 v) (fRs2 w) (fRs1 w) (fRm w) (fRd w) (v.extractLsb 6 0) = w :=
  encR_fields (extractLsb_of_and_eq h rfl) rfl rfl (extractLsb_of_and_eq h rfl)

theorem encR_of_maskFFF0007F (w : Word32) (h : w &&& 0xFFF0007F = v) :
    encR (fFunct7 v) (fRs2 v) (fRs1 w) (fRm w) (fRd w) (v.extractLsb 6 0) = w :=
  encR_fields (extractLsb_of_and_eq h rfl) (extractLsb_of_and_eq h rfl) rfl (extractLsb_of_and_eq h rfl)

theorem encR_of_maskFFF0707F (w : Word32) (h : w &&& 0xFFF0707F = v) :
    encR (fFunct7 v) (fRs2 v) (fRs1 w) (fFunct3 v) (fRd w) (v.extractLsb 6 0) = w :=
  encR_fields (extractLsb_of_and_eq h rfl) (extractLsb_of_and_eq h rfl) (extractLsb_of_and_eq h rfl)
    (extractLsb_of_and_eq h rfl)

theorem encA_of_maskF800707F (w : Word32) (h : w &&& 0xF800707F = v) :
    encA (fRs3 v) (fAqRl w) (fRs2 w) (fRs1 w) (fFunct3 v) (fRd w) (v.extractLsb 6 0) = w :=
  encA_fields (extractLsb_of_and_eq h rfl) rfl (extractLsb_of_and_eq h rfl) (extractLsb_of_and_eq h rfl)

theorem encA_of_maskF9F0707F (w : Word32) (h : w &&& 0xF9F0707F = v) :
    encA (fRs3 v) (fAqRl w) (fRs2 v) (fRs1 w) (fFunct3 v) (fRd w) (v.extractLsb 6 0) = w :=
  encA_fields (extractLsb_of_and_eq h rfl) (extractLsb_of_and_eq h rfl) (extractLsb_of_and_eq h rfl)
    (extractLsb_of_and_eq h rfl)

theorem encR4_of_mask600007F (w : Word32) (h : w &&& 0x0600007F = v) :
    encR4 (fRs3 w) (fFunct2 v) (fRs2 w) (fRs1 w) (fRm w) (fRd w) (v.extractLsb 6 0) = w :=
  encR4_fields (extractLsb_of_and_eq h rfl) (extractLsb_of_and_eq h rfl)

theorem eq_of_maskFFFFFFFF (w : Word32) (h : w &&& 0xFFFFFFFF = v) : v = w :=
  h.symm.trans BitVec.and_allOnes

theorem parcel_of_maskFFFF (w : Word32) (h : w &&& 0x0000FFFF = v) :
    zext32 (v.extractLsb 15 0) = zext32 (w.extractLsb 15 0) :=
  congrArg zext32 (extractLsb_of_and_eq h rfl).symm

/-! ### The entries of the table, R104 -/

/-- A word that a full-width entry takes is the encoding of what the entry reads. -/
def Entry.Rebuilds (e : Entry) : Prop := ∀ w : Word32, w &&& e.mask = e.eigen → encode (e.build w) = w

/-- The parcel of a word that a compressed entry takes is the encoding of what the entry reads. -/
def Entry.RebuildsParcel (e : Entry) : Prop :=
  ∀ w : Word32, w &&& e.mask = e.eigen → encode (e.build w) = zext32 (w.extractLsb 15 0)

theorem tableJB_rebuilds : ∀ e ∈ tableJB, e.Rebuilds := by
  simp only [tableJB, List.forall_mem_cons]
  and_intros
  iterate 2 · exact encU_of_mask7F
  · exact encJ_of_mask7F
  · exact encI_of_mask707F
  iterate 6 · exact encB_of_mask707F
  · exact List.forall_mem_nil _

theorem tableLS_rebuilds : ∀ e ∈ tableLS, e.Rebuilds := by
  simp only [tableLS, List.forall_mem_cons]
  and_intros
  iterate 7 · exact encI_of_mask707F
  iterate 4 · exact encS_of_mask707F
  iterate 6 · exact encI_of_mask707F
  · exact List.forall_mem_nil _

theorem tableAlu_rebuilds : ∀ e ∈ tableAlu, e.Rebuilds := by
  simp only [tableAlu, List.forall_mem_cons]
  and_intros
  iterate 3 · exact encSh6_of_maskFC00707F
  iterate 10 · exact encR_of_maskFE00707F
  · exact encI_of_mask707F
  iterate 8 · exact encR_of_maskFE00707F
  · exact eq_of_maskFFFFFFFF
  · exact List.forall_mem_nil _

theorem tableM_rebuilds : ∀ e ∈ tableM, e.Rebuilds := by
  simp only [tableM, List.forall_mem_cons]
  and_intros
  iterate 13 · exact encR_of_maskFE00707F
  · exact List.forall_mem_nil _

theorem tableA_rebuilds : ∀ e ∈ tableA, e.Rebuilds := by
  simp only [tableA, List.forall_mem_cons]
  and_intros
  · exact encA_of_maskF9F0707F
  iterate 10 · exact encA_of_maskF800707F
  · exact encA_of_maskF9F0707F
  iterate 10 · exact encA_of_maskF800707F
  · exact List.forall_mem_nil _

theorem tableF1_rebuilds : ∀ e ∈ tableF1, e.Rebuilds := by
  simp only [tableF1, List.forall_mem_cons]
  and_intros
  · exact encI_of_mask707F
  · exact encS_of_mask707F
  iterate 4 · exact encR4_of_mask600007F
  iterate 4 · exact encR_of_maskFE00007F
  · exact encR_of_maskFFF0007F
  iterate 4 · exact encR_of_maskFE00707F
  · exact List.forall_mem_nil _

theorem tableF2_rebuilds : ∀ e ∈ tableF2, e.Rebuilds := by
  simp only [tableF2, List.forall_mem_cons]
  and_intros
  · exact encR_of_maskFE00707F
  iterate 2 · exact encR_of_maskFFF0007F
  · exact encR_of_maskFFF0707F
  iterate 3 · exact encR_of_maskFE00707F
  · exact encR_of_maskFFF0707F
  iterate 2 · exact encR_of_maskFFF0007F
  · exact encR_of_maskFFF0707F
  iterate 4 · exact encR_of_maskFFF0007F
  · exact List.forall_mem_nil _

theorem tableC1_rebuilds : ∀ e ∈ tableC1, e.RebuildsParcel := by
  simp only [tableC1, List.forall_mem_cons]
  and_intros
  · exact fun _ h => congrArg zext32 (encCIW_cUimmCIW (extractLsb_of_and_eq h rfl) (extractLsb_of_and_eq h rfl))
  · exact fun _ h => congrArg zext32 (encCL_cUimmLW (extractLsb_of_and_eq h rfl) (extractLsb_of_and_eq h rfl))
  · exact fun _ h => congrArg zext32 (encCL_cUimmLD (extractLsb_of_and_eq h rfl) (extractLsb_of_and_eq h rfl))
  · exact fun _ h => congrArg zext32 (encCL_cUimmLW (extractLsb_of_and_eq h rfl) (extractLsb_of_and_eq h rfl))
  · exact fun _ h => congrArg zext32 (encCL_cUimmLD (extractLsb_of_and_eq h rfl) (extractLsb_of_and_eq h rfl))
  · exact parcel_of_maskFFFF
  iterate 3 · exact fun _ h => congrArg zext32 (encCI_cImm6 (extractLsb_of_and_eq h rfl) (extractLsb_of_and_eq h rfl))
  · exact fun _ h => congrArg zext32 (encCI_cImm16spField (extractLsb_of_and_eq h rfl) (extractLsb_of_and_eq h rfl)
      (extractLsb_of_and_eq h rfl))
  · exact fun _ h => congrArg zext32 (encCI_cImm6 (extractLsb_of_and_eq h rfl) (extractLsb_of_and_eq h rfl))
  · exact List.forall_mem_nil _

theorem tableC2_rebuilds : ∀ e ∈ tableC2, e.RebuildsParcel := by
  simp only [tableC2, List.forall_mem_cons]
  and_intros
  iterate 3 · exact fun _ h => congrArg zext32 (encCBa_cImm6 (extractLsb_of_and_eq h rfl) (extractLsb_of_and_eq h rfl)
      (extractLsb_of_and_eq h rfl))
  iterate 6 · exact fun _ h => congrArg zext32 (encCA_fields (extractLsb_of_and_eq h rfl) (extractLsb_of_and_eq h rfl)
      (extractLsb_of_and_eq h rfl))
  · exact fun _ h => congrArg zext32 (encCJ_cOffJ (extractLsb_of_and_eq h rfl) (extractLsb_of_and_eq h rfl))
  iterate 2 · exact fun _ h => congrArg zext32 (encCB_cOffB (extractLsb_of_and_eq h rfl) (extractLsb_of_and_eq h rfl))
  · exact List.forall_mem_nil _

theorem tableC3_rebuilds : ∀ e ∈ tableC3, e.RebuildsParcel := by
  simp only [tableC3, List.forall_mem_cons]
  and_intros
  · exact fun _ h => congrArg zext32 (encCI_cImm6 (extractLsb_of_and_eq h rfl) (extractLsb_of_and_eq h rfl))
  · exact fun _ h => congrArg zext32 (encCI_cUimmLWSP (extractLsb_of_and_eq h rfl) (extractLsb_of_and_eq h rfl))
  · exact fun _ h => congrArg zext32 (encCI_cUimmLDSP (extractLsb_of_and_eq h rfl) (extractLsb_of_and_eq h rfl))
  · exact fun _ h => congrArg zext32 (encCR_fields (extractLsb_of_and_eq h rfl) (extractLsb_of_and_eq h rfl)
      (extractLsb_of_and_eq h rfl))
  · exact fun _ h => congrArg zext32 (encCR_fields (extractLsb_of_and_eq h rfl) rfl (extractLsb_of_and_eq h rfl))
  · exact parcel_of_maskFFFF
  · exact fun _ h => congrArg zext32 (encCR_fields (extractLsb_of_and_eq h rfl) (extractLsb_of_and_eq h rfl)
      (extractLsb_of_and_eq h rfl))
  · exact fun _ h => congrArg zext32 (encCR_fields (extractLsb_of_and_eq h rfl) rfl (extractLsb_of_and_eq h rfl))
  · exact fun _ h => congrArg zext32 (encCSS_cUimmSWSP (extractLsb_of_and_eq h rfl) (extractLsb_of_and_eq h rfl))
  · exact fun _ h => congrArg zext32 (encCSS_cUimmSDSP (extractLsb_of_and_eq h rfl) (extractLsb_of_and_eq h rfl))
  · exact List.forall_mem_nil _

/-- Segment F of the table, R102. -/
def fullEntries : List Entry := tableJB ++ tableLS ++ tableAlu ++ tableM ++ tableA ++ tableF1 ++ tableF2

/-- Segment C of the table, R102. -/
def compressedEntries : List Entry := tableC1 ++ tableC2 ++ tableC3

theorem patternTable_eq_append : patternTable = fullEntries ++ compressedEntries := by
  simp only [patternTable, fullEntries, compressedEntries, List.append_assoc]

theorem fullEntries_rebuilds : ∀ e ∈ fullEntries, e.Rebuilds := by
  simp only [fullEntries, List.forall_mem_append]
  exact ⟨⟨⟨⟨⟨⟨tableJB_rebuilds, tableLS_rebuilds⟩, tableAlu_rebuilds⟩, tableM_rebuilds⟩, tableA_rebuilds⟩,
    tableF1_rebuilds⟩, tableF2_rebuilds⟩

theorem compressedEntries_rebuilds : ∀ e ∈ compressedEntries, e.RebuildsParcel := by
  simp only [compressedEntries, List.forall_mem_append]
  exact ⟨⟨tableC1_rebuilds, tableC2_rebuilds⟩, tableC3_rebuilds⟩

theorem compressedEntries_lowBits : ∀ e ∈ compressedEntries,
    e.mask.extractLsb 1 0 = BitVec.allOnes 2 ∧ e.eigen.extractLsb 1 0 ≠ 0b11#2 := by
  decide +kernel

theorem isRvc_of_hits {e : Entry} (he : e ∈ compressedEntries) (h : w &&& e.mask = e.eigen) : isRvc w = true := by
  obtain ⟨hmask, hne⟩ := compressedEntries_lowBits e he
  rw [isRvc_eq_decide, extractLsb_of_and_eq h hmask, decide_eq_true hne]

/-- What an entry reads from a word it takes encodes to the word of the scan: no bit is dropped. -/
theorem encode_build {e : Entry} (he : e ∈ patternTable) (h : e.hits w = true) : encode (e.build w) = scanWord w := by
  rw [Entry.hits_iff] at h
  rw [patternTable_eq_append, List.mem_append] at he
  obtain hfull | hcomp := he
  · have hw := fullEntries_rebuilds e hfull w h
    rw [← scanWord_encode, hw]
  · rw [compressedEntries_rebuilds e hcomp w h, scanWord_of_isRvc (isRvc_of_hits hcomp h), zext32]

/-! ### The first match is well formed, R106 -/

theorem index_build {k : Nat} {e : Entry} (h : patternTable[k]? = some e) (w : Word32) : (e.build w).index = k := by
  have hmap : patternTable.map (fun e => (e.build w).index) = List.range 148 := rfl
  have hk : (patternTable.map fun e => (e.build w).index)[k]? = some (e.build w).index := by
    rw [List.getElem?_map, h]
    rfl
  rw [hmap] at hk
  obtain ⟨_, hk⟩ := List.getElem?_eq_some_iff.mp hk
  simpa using hk.symm

open Laws.Reads in
/-- The word of a term that is not well formed matches an entry before the term's own. -/
theorem exists_earlier_hits {i : Instr} (h : WellFormed i = false) :
    ∃ j e, j < i.index ∧ patternTable[j]? = some e ∧ e.hits (encode i) = true := by
  cases i with
  | cAddi rd imm =>
    obtain ⟨rfl, rfl⟩ : rd = 0 ∧ imm = 0 := by simpa [WellFormed] using h
    exact ⟨120, _, by decide, rfl, by decide⟩
  | cLui rd imm =>
    obtain rfl : rd = 2 := by simpa [WellFormed] using h
    exact ⟨124, _, by simp [Instr.index], rfl, hits_of (encCI_maskEF83 ..) (by decide)⟩
  | cMv rd rs2 =>
    obtain rfl : rs2 = 0 := by simpa [WellFormed] using h
    exact ⟨141, _, by simp [Instr.index], rfl, hits_of (encCR_maskF07F ..) (by decide)⟩
  | cJalr rs1 =>
    obtain rfl : rs1 = 0 := by simpa [WellFormed] using h
    exact ⟨143, _, by decide, rfl, by decide⟩
  | cAdd rd rs2 =>
    obtain rfl : rs2 = 0 := by simpa [WellFormed] using h
    exact ⟨144, _, by simp [Instr.index], rfl, hits_of (encCR_maskF07F ..) (by decide)⟩
  | _ => cases h

theorem exists_firstMatch_of_decode {i : Instr} (h : decode w = .ok i) :
    ∃ e, firstMatch (scanWord w) = some e ∧ e.build (scanWord w) = i := by
  rw [decode] at h
  split at h
  · exact ⟨_, ‹_›, Except.ok.inj h⟩
  · cases h

/-- Settles O3: the first entry to take the word of the scan rebuilds it, and no earlier entry takes the word again. -/
theorem encodeOfDecode : Obligations.EncodeOfDecode := by
  intro w i hd
  obtain ⟨e, he, rfl⟩ := exists_firstMatch_of_decode hd
  obtain ⟨hhit, k, hk, rfl, hfirst⟩ := List.find?_eq_some_iff_getElem.mp he
  have henc : encode (patternTable[k].build (scanWord w)) = scanWord w := by
    rw [encode_build (List.getElem_mem hk) hhit, scanWord_scanWord]
  refine ⟨?_, henc⟩
  by_contra hwf
  obtain ⟨j, e, hj, hget, hearly⟩ := exists_earlier_hits (Bool.eq_false_iff.mpr hwf)
  rw [index_build (List.getElem?_eq_getElem hk)] at hj
  obtain ⟨_, rfl⟩ := List.getElem?_eq_some_iff.mp hget
  rw [henc] at hearly
  simpa [hearly] using hfirst j hj

end Sys2Proof
end

section
/-! PROOFS. WordArith: the model's word operations as arithmetic on the numbers the words stand for
(40_base_integer.md R162 to R189). -/
namespace Sys2Proof

/-! ### Words of any width; in the shifts `k` is the amount as the model reads it, `l` its value -/

section

variable {n k l : Nat} (a b : BitVec n)

theorem add_eq_ofInt : a + b = BitVec.ofInt n (a.toInt + b.toInt) := by
  rw [BitVec.ofInt_add, BitVec.ofInt_toInt, BitVec.ofInt_toInt]

/-- The second summand may be narrower: `signExtend` keeps its value as an integer. -/
theorem add_signExtend_eq_ofInt {m : Nat} (x : BitVec m) :
    a + x.signExtend n = BitVec.ofInt n (a.toInt + x.toInt) := by
  rw [BitVec.ofInt_add, BitVec.ofInt_toInt]
  rfl

theorem sub_eq_ofInt : a - b = BitVec.ofInt n (a.toInt - b.toInt) := by
  rw [Int.sub_eq_add_neg, BitVec.ofInt_add, BitVec.ofInt_neg, BitVec.ofInt_toInt, BitVec.ofInt_toInt,
    BitVec.sub_eq_add_neg]

theorem shiftLeft_eq_ofNat (h : k = l) : a <<< k = BitVec.ofNat n (a.toNat * 2 ^ l) := by
  rw [h, ← Nat.shiftLeft_eq]
  rfl

theorem ushiftRight_eq_ofNat (h : k = l) : a >>> k = BitVec.ofNat n (a.toNat / 2 ^ l) := by
  rw [h, ← Nat.shiftRight_eq_div_pow, ← BitVec.toNat_ushiftRight, BitVec.ofNat_toNat, BitVec.setWidth_eq]

theorem sshiftRight_eq_ofInt (h : k = l) : a.sshiftRight k = BitVec.ofInt n (a.toInt / 2 ^ l) := by
  rw [h, BitVec.sshiftRight_eq, Int.shiftRight_eq_div_pow, Nat.cast_pow, Nat.cast_ofNat]

/-- A stored immediate is sign-extended twice, to 32 bits and to 64 (30_encoding.md R91). -/
theorem sext64_signExtend (x : BitVec n) (hn : n ≤ 32) : sext64 (x.signExtend 32) = x.signExtend 64 :=
  congrArg (BitVec.ofInt 64) (BitVec.toInt_signExtend_of_le hn)

end

theorem sext64_immI (imm : BitVec 12) : sext64 (immI imm) = imm.signExtend 64 := sext64_signExtend imm (by decide)

/-! ### Low halves, 40_base_integer.md R181 to R189 -/

theorem low32_add (a b : Word) : low32 (a + b) = low32 a + low32 b := BitVec.setWidth_add a b (by decide)

theorem low32_sub (a b : Word) : low32 (a - b) = low32 a - low32 b := by
  rw [BitVec.sub_eq_add_neg, low32_add, BitVec.sub_eq_add_neg]
  exact congrArg (low32 a + ·) (BitVec.setWidth_neg_of_le (by decide))

theorem low32_sext64 (v : Word32) : low32 (sext64 v) = v := by
  ext i hi
  rw [low32, sext64, BitVec.getElem_setWidth, BitVec.getLsbD_signExtend]
  simp [hi, Nat.lt_trans hi]

namespace Machine

/-! ### Conditions and shift amounts, 40_base_integer.md R145 to R150, R163, R173, R187 -/

theorem boolWord_condLt (a b : Word) : boolWord (condLt a b) = if a.slt b then 1 else 0 := rfl

theorem boolWord_condLtu (a b : Word) : boolWord (condLtu a b) = if a.ult b then 1 else 0 := rfl

theorem condNe_eq_decide (a b : Word) : condNe a b = decide (a ≠ b) := by rw [condNe, bne, beq_eq_decide, decide_not]

theorem condGe_eq_not_slt (a b : Word) : condGe a b = !a.slt b := BitVec.sle_eq_not_slt

theorem condGeu_eq_not_ult (a b : Word) : condGeu a b = !a.ult b := BitVec.ule_eq_not_ult b a

theorem shamtX_eq_mod (b : Word) : shamtX b = b.toNat % 64 := BitVec.extractLsb_toNat ..

theorem shamtW_eq_mod (b : Word) : shamtW b = (low32 b).toNat % 32 := by
  rw [shamtW, BitVec.extractLsb_toNat, low32, BitVec.toNat_setWidth]
  omega

end Machine

end Sys2Proof
end

section
/-! PROOFS. BaseInteger: the statements on 40_base_integer.md. -/
namespace Sys2Proof.Machine

variable {s : State}

/-! ### The shapes when the facade serves them, 20_memory.md R57 -/

theorem aluX1_eq_next {w v : Word} {rd rs1 : Reg} {g : Word → Word} (hs : Serves s [.readX rs1, .writePc])
    (hd : ServesX s rd) (hv : g (s.getX rs1) = v) :
    aluX1 w rd rs1 g s = .next ((s.setX rd v).withPc (s.pc + w)) := by
  subst hv
  exact aluX1_next.mpr ⟨hs _ (by simp), hd, hs _ (by simp), rfl⟩

theorem aluX2_eq_next {w v : Word} {rd rs1 rs2 : Reg} {g : Word → Word → Word}
    (hs : Serves s [.readX rs1, .readX rs2, .writePc]) (hd : ServesX s rd) (hv : g (s.getX rs1) (s.getX rs2) = v) :
    aluX2 w rd rs1 rs2 g s = .next ((s.setX rd v).withPc (s.pc + w)) := by
  subst hv
  exact aluX2_next.mpr ⟨hs _ (by simp), hs _ (by simp), hd, hs _ (by simp), rfl⟩

theorem branch_eq_next {w off off' : Word} {rs1 rs2 : Reg} {c : Word → Word → Bool} {b : Bool}
    (hs : Serves s [.readX rs1, .readX rs2, .readPc, .writePc]) (ho : off = off')
    (hc : c (s.getX rs1) (s.getX rs2) = b) :
    branch w rs1 rs2 off c s = .next (s.withPc (if b then s.pc + off' else s.pc + w)) := by
  subst ho hc
  exact branch_next.mpr ⟨hs _ (by simp), hs _ (by simp), hs _ (by simp), hs _ (by simp), rfl⟩

/-! ### The statements -/

theorem decode_of_encode_eq {i : Instr} {w : Word32} (hi : WellFormed i = true) (hw : encode i = w) :
    decode w = .ok i := hw ▸ decode_encode hi

/-- Settles O1: the encoder writes each of the words. -/
theorem sampleWordsDecode : Obligations.SampleWordsDecode := by
  refine ⟨?_, ?_, ?_, ?_, ?_, ?_, ?_, ?_, ?_, ?_, ?_, ?_⟩ <;>
    exact decode_of_encode_eq (by decide) (by decide)

/-- Settles O31, by the arithmetic of each operation. -/
theorem registerAluResults : Obligations.RegisterAluResults := by
  intro s rd rs1 rs2 hs hd a b puts
  unfold exec
  have hsh : shamtX b = b.toNat % 64 := shamtX_eq_mod b
  refine ⟨aluX2_eq_next hs hd ?add, aluX2_eq_next hs hd ?sub, aluX2_eq_next hs hd ?sll, aluX2_eq_next hs hd ?slt,
    aluX2_eq_next hs hd ?sltu, aluX2_eq_next hs hd ?xor, aluX2_eq_next hs hd ?srl, aluX2_eq_next hs hd ?sra,
    aluX2_eq_next hs hd ?or, aluX2_eq_next hs hd ?and⟩
  case add => exact BitVec.add_def a b
  case sub => exact sub_eq_ofInt a b
  case sll => exact shiftLeft_eq_ofNat a hsh
  case slt => exact boolWord_condLt a b
  case sltu => exact boolWord_condLtu a b
  case srl => exact ushiftRight_eq_ofNat a hsh
  case sra => exact sshiftRight_eq_ofInt a hsh
  case xor | or | and => rfl

/-- Settles O32: the operations of O31 on the sign-extended immediate. -/
theorem immediateAluResults : Obligations.ImmediateAluResults := by
  intro s rd rs1 imm sh hs hd a k puts
  unfold exec
  refine ⟨aluX1_eq_next hs hd ?addi, aluX1_eq_next hs hd ?slti, aluX1_eq_next hs hd ?sltiu, aluX1_eq_next hs hd ?xori,
    aluX1_eq_next hs hd ?ori, aluX1_eq_next hs hd ?andi, aluX1_eq_next hs hd ?slli, aluX1_eq_next hs hd ?srli,
    aluX1_eq_next hs hd ?srai⟩
  case addi => rw [sext64_immI]; exact add_signExtend_eq_ofInt a imm
  case slti => rw [sext64_immI]; exact boolWord_condLt a k
  case sltiu => rw [sext64_immI]; exact boolWord_condLtu a k
  case xori | ori | andi => rw [sext64_immI]
  case slli => exact shiftLeft_eq_ofNat a rfl
  case srli => exact ushiftRight_eq_ofNat a rfl
  case srai => exact sshiftRight_eq_ofInt a rfl

/-- Settles O33: the low half of a sum or difference is that of the low halves, and the shifts work on them. -/
theorem wordAluResults : Obligations.WordAluResults := by
  intro s rd rs1 rs2 imm sh hs hd a b puts
  unfold exec
  obtain ⟨h1, -, hpc, -⟩ : _ ∧ _ ∧ _ := by simpa only [Serves, List.forall_mem_cons] using hs
  have hs1 : Serves s [.readX rs1, .writePc] := by simp [Serves, h1, hpc]
  have hsh : shamtW (s.getX rs2) = b.toNat % 32 := shamtW_eq_mod _
  refine ⟨aluX1_eq_next hs1 hd (congrArg sext64 ?addiw), aluX1_eq_next hs1 hd (congrArg sext64 ?slliw),
    aluX1_eq_next hs1 hd (congrArg sext64 ?srliw), aluX1_eq_next hs1 hd (congrArg sext64 ?sraiw),
    aluX2_eq_next hs hd (congrArg sext64 ?addw), aluX2_eq_next hs hd (congrArg sext64 ?subw),
    aluX2_eq_next hs hd (congrArg sext64 ?sllw), aluX2_eq_next hs hd (congrArg sext64 ?srlw),
    aluX2_eq_next hs hd (congrArg sext64 ?sraw)⟩
  case addiw => rw [low32_add, low32_sext64]; exact add_signExtend_eq_ofInt a imm
  case addw => rw [low32_add]; exact add_eq_ofInt a b
  case subw => rw [low32_sub]; exact sub_eq_ofInt a b
  case slliw => exact shiftLeft_eq_ofNat a rfl
  case srliw => exact ushiftRight_eq_ofNat a rfl
  case sraiw => exact sshiftRight_eq_ofInt a rfl
  case sllw => exact shiftLeft_eq_ofNat a hsh
  case srlw => exact ushiftRight_eq_ofNat a hsh
  case sraw => exact sshiftRight_eq_ofInt a hsh

/-- Settles O34, by the shapes of the four instructions. -/
theorem upperImmediatesAndJumps : Obligations.UpperImmediatesAndJumps := by
  intro s rd rs1 u imm hs hd
  obtain ⟨h1, hrpc, hwpc, -⟩ : _ ∧ _ ∧ _ := by simpa only [Serves, List.forall_mem_cons] using hs
  refine ⟨?lui, ?auipc, ?jal, ?jalr⟩
  case lui => exact aluX0_next.mpr ⟨hd, hwpc, rfl⟩
  case auipc => exact pcRel_next.mpr ⟨hrpc, hd, hwpc, rfl⟩
  case jal => exact jump_next.mpr ⟨hrpc, hd, hwpc, by rw [immJ, sext64_signExtend _ (by decide)]⟩
  case jalr => exact jumpReg_next.mpr ⟨hrpc, h1, hd, hwpc, by rw [sext64_immI]; rfl⟩

/-- Settles O35: the offset is the field with its constant 0 bit, and each condition is a comparison of words. -/
theorem branchResults : Obligations.BranchResults := by
  intro s rs1 rs2 o hs a b goes
  unfold exec
  have ho : sext64 (immB o) = (o ++ 0#1).signExtend 64 := sext64_signExtend _ (by decide)
  refine ⟨?beq, ?bne, ?blt, ?bge, ?bltu, ?bgeu⟩
  case beq => exact branch_eq_next hs ho (beq_eq_decide a b)
  case bne => exact branch_eq_next hs ho (condNe_eq_decide a b)
  case bge => exact branch_eq_next hs ho (condGe_eq_not_slt a b)
  case bgeu => exact branch_eq_next hs ho (condGeu_eq_not_ult a b)
  case blt | bltu => exact branch_eq_next hs ho rfl

end Sys2Proof.Machine
end

section
/-! PROOFS. DivArith: products, quotients and remainders as arithmetic on the numbers the words stand for
(41_muldiv.md R201 to R214). -/
namespace Sys2Proof

/-! ### Products and low halves, R201 to R204 and R209 -/

theorem mul_eq_ofInt {n : Nat} (a b : BitVec n) : a * b = BitVec.ofInt n (a.toInt * b.toInt) := by
  rw [BitVec.ofInt_mul, BitVec.ofInt_toInt, BitVec.ofInt_toInt]

theorem low32_mul (a b : Word) : low32 (a * b) = low32 a * low32 b := BitVec.setWidth_mul a b (by decide)

theorem toInt_sext64 (v : Word32) : (sext64 v).toInt = v.toInt := BitVec.toInt_signExtend_of_le (by decide)

namespace Machine

theorem mulHigh_eq_ofInt (p : Int) : mulHigh p = BitVec.ofInt 64 (p / 2 ^ 64) := by
  apply BitVec.eq_of_toNat_eq
  rw [mulHigh, BitVec.extractLsb_toNat, Nat.shiftRight_eq_div_pow, BitVec.toNat_ofInt, BitVec.toNat_ofInt]
  omega

theorem mulHigh_natCast (p : Nat) : mulHigh p = BitVec.ofNat 64 (p / 2 ^ 64) := by
  rw [mulHigh_eq_ofInt, ← BitVec.ofInt_natCast]
  rfl

/-! ### Quotients and remainders in any width, R205 to R208 and R210 to R213 -/

section

variable {n : Nat} (a b : BitVec n)

theorem sdiv_eq_ofInt : a.sdiv b = BitVec.ofInt n (a.toInt.tdiv b.toInt) :=
  BitVec.eq_of_toInt_eq (by rw [BitVec.toInt_sdiv, BitVec.toInt_ofInt])

theorem srem_eq_ofInt : a.srem b = BitVec.ofInt n (a.toInt.tmod b.toInt) := by
  rw [← BitVec.toInt_srem, BitVec.ofInt_toInt]

/-- The overflow needs no case of its own: the quotient wraps to the dividend. -/
theorem divS_eq_ite : divS a b = if b = 0 then -1 else BitVec.ofInt n (a.toInt.tdiv b.toInt) := by
  unfold divS
  split_ifs with hb ho
  · exact BitVec.neg_one_eq_allOnes.symm
  · obtain ⟨rfl, rfl⟩ := ho
    rw [← sdiv_eq_ofInt, ← BitVec.neg_one_eq_allOnes, BitVec.intMin_sdiv_neg_one]
  · rfl

/-- The overflow needs no case of its own: every remainder by -1 is 0. -/
theorem remS_eq_ite : remS a b = if b = 0 then a else BitVec.ofInt n (a.toInt.tmod b.toInt) := by
  unfold remS
  split_ifs with hb ho
  · rfl
  · obtain ⟨rfl, rfl⟩ := ho
    rcases n with _ | n
    · exact Subsingleton.elim _ _
    · rw [BitVec.toInt_allOnes, if_pos n.succ_pos, Int.tmod_neg, Int.tmod_one]
      rfl
  · rw [Int.tmod_def]

theorem divU_eq_ite : divU a b = if b = 0 then -1 else a / b := by
  rw [divU, ← BitVec.neg_one_eq_allOnes, BitVec.udiv_def]
  rfl

theorem remU_eq_ite : remU a b = if b = 0 then a else a % b := by
  rw [remU, BitVec.umod_def]

/-! ### The special cases of R214 -/

theorem divS_zero : divS a 0 = -1 := by rw [divS_eq_ite, if_pos rfl]

theorem divU_zero : divU a 0 = -1 := by rw [divU_eq_ite, if_pos rfl]

theorem remS_zero : remS a 0 = a := if_pos rfl

theorem remU_zero : remU a 0 = a := if_pos rfl

/-- The premise leaves out width 0 alone. -/
theorem divS_intMin_neg_one (h : (-1 : BitVec n) ≠ 0) : divS (BitVec.intMin n) (-1) = BitVec.intMin n := by
  rw [divS, if_neg h, if_pos ⟨rfl, BitVec.neg_one_eq_allOnes⟩]

theorem remS_intMin_neg_one (h : (-1 : BitVec n) ≠ 0) : remS (BitVec.intMin n) (-1) = 0 := by
  rw [remS, if_neg h, if_pos ⟨rfl, BitVec.neg_one_eq_allOnes⟩]

/-! ### The division law, R214 -/

variable {a b}

theorem divS_remS_law {q r : Int} (hb : b ≠ 0) (ho : ¬(a = BitVec.intMin n ∧ b = -1)) (hq : q = (divS a b).toInt)
    (hr : r = (remS a b).toInt) :
    a.toInt = b.toInt * q + r ∧ r.natAbs < b.toInt.natAbs ∧ (0 ≤ a.toInt → 0 ≤ r) ∧ (a.toInt ≤ 0 → r ≤ 0) := by
  rw [divS_eq_ite, if_neg hb, ← sdiv_eq_ofInt, BitVec.toInt_sdiv_of_ne_or_ne a b (not_and_or.mp ho)] at hq
  rw [remS_eq_ite, if_neg hb, ← srem_eq_ofInt, BitVec.toInt_srem] at hr
  subst hq hr
  have hb0 : b.toInt ≠ 0 := fun h => hb (BitVec.eq_of_toInt_eq (by simpa using h))
  refine ⟨(Int.mul_tdiv_add_tmod ..).symm, ?lt, Int.tmod_nonneg _, fun ha => ?nonpos⟩
  case lt => rw [Int.natAbs_tmod]; exact Nat.mod_lt _ (Int.natAbs_pos.mpr hb0)
  case nonpos =>
    have := Int.tmod_nonneg b.toInt (Int.neg_nonneg_of_nonpos ha)
    rw [Int.neg_tmod] at this
    exact Int.neg_nonneg.mp this

theorem divU_remU_law (hb : b ≠ 0) :
    a.toNat = b.toNat * (divU a b).toNat + (remU a b).toNat ∧ (remU a b).toNat < b.toNat := by
  have hb0 : b.toNat ≠ 0 := fun h => hb (BitVec.eq_of_toNat_eq h)
  rw [divU_eq_ite, if_neg hb, remU_eq_ite, if_neg hb, BitVec.toNat_udiv, BitVec.toNat_umod]
  exact ⟨(Nat.div_add_mod ..).symm, Nat.mod_lt _ (Nat.pos_of_ne_zero hb0)⟩

end

end Machine

end Sys2Proof
end

section
/-! PROOFS. MulDiv: the statements on 41_muldiv.md. -/
namespace Sys2Proof.Machine

/-! ### What a completed two-operand instruction leaves in `rd`, 10_state.md R22 -/

theorem getX_of_aluX2 {s t : State} {w : Word} {rd rs1 rs2 : Reg} {g : Word → Word → Word} (hd : rd ≠ 0)
    (h : aluX2 w rd rs1 rs2 g s = .next t) : t.getX rd = g (s.getX rs1) (s.getX rs2) := by
  obtain ⟨-, -, -, -, rfl⟩ := aluX2_next.mp h
  rw [State.withPc_getX, State.getX_setX_same s hd]

/-! ### The statements -/

/-- Settles O38: each product is the exact one's low or high half. -/
theorem multiplyResults : Obligations.MultiplyResults := by
  intro s rd rs1 rs2 hs hd a b puts
  unfold exec
  refine ⟨aluX2_eq_next hs hd ?mul, aluX2_eq_next hs hd ?mulh, aluX2_eq_next hs hd ?mulhsu, aluX2_eq_next hs hd ?mulhu,
    aluX2_eq_next hs hd (congrArg sext64 ?mulw)⟩
  case mul => exact mul_eq_ofInt a b
  case mulh | mulhsu => exact mulHigh_eq_ofInt _
  case mulhu => exact mulHigh_natCast (a.toNat * b.toNat)
  case mulw => rw [low32_mul]; rfl

/-- Settles O39, by the equations of the four operations, which hold in both widths. -/
theorem divideResults : Obligations.DivideResults := by
  intro s rd rs1 rs2 hs hd a b a' b' puts
  unfold exec
  exact ⟨aluX2_eq_next hs hd (divS_eq_ite a b), aluX2_eq_next hs hd (divU_eq_ite a b),
    aluX2_eq_next hs hd (remS_eq_ite a b), aluX2_eq_next hs hd (remU_eq_ite a b),
    aluX2_eq_next hs hd (congrArg sext64 (divS_eq_ite a' b')), aluX2_eq_next hs hd (congrArg sext64 (divU_eq_ite a' b')),
    aluX2_eq_next hs hd (congrArg sext64 (remS_eq_ite a' b')), aluX2_eq_next hs hd (congrArg sext64 (remU_eq_ite a' b'))⟩

/-- Settles O40: each register holds its operation's result, of which the law and the special cases are stated. -/
theorem divisionLaw : Obligations.DivisionLaw := by
  intro s t u q r rs1 rs2 hq0 hr0 a b a' b' Q R
  unfold exec
  refine ⟨fun hq hr => ?signed, fun hq hr => ?unsigned, fun hq hr => ?signedW, fun hq hr => ?unsignedW⟩
  case signed =>
    have hQ : Q = divS a b := getX_of_aluX2 hq0 hq
    have hR : R = remS a b := getX_of_aluX2 hr0 hr
    rw [hQ, hR]
    refine ⟨fun hb ho => divS_remS_law hb ho rfl rfl, fun hb => ?zero, fun ha hb => ?overflow⟩
    case zero => rw [hb]; exact ⟨divS_zero a, remS_zero a⟩
    case overflow => rw [ha, hb]; exact ⟨divS_intMin_neg_one (by decide), remS_intMin_neg_one (by decide)⟩
  case unsigned =>
    have hQ : Q = divU a b := getX_of_aluX2 hq0 hq
    have hR : R = remU a b := getX_of_aluX2 hr0 hr
    rw [hQ, hR]
    refine ⟨divU_remU_law, fun hb => ?_⟩
    rw [hb]
    exact ⟨divU_zero a, remU_zero a⟩
  case signedW =>
    have hQ : Q = sext64 (divS a' b') := getX_of_aluX2 hq0 hq
    have hR : R = sext64 (remS a' b') := getX_of_aluX2 hr0 hr
    rw [hQ, hR]
    refine ⟨fun hb ho => divS_remS_law hb ho (toInt_sext64 _) (toInt_sext64 _), fun hb => ?zeroW, fun ha hb => ?overflowW⟩
    case zeroW => rw [hb, divS_zero, remS_zero]; exact ⟨by decide, rfl⟩
    case overflowW => rw [ha, hb, divS_intMin_neg_one (by decide), remS_intMin_neg_one (by decide)]; decide
  case unsignedW =>
    intro Q' R'
    have hQ : Q = sext64 (divU a' b') := getX_of_aluX2 hq0 hq
    have hR : R = sext64 (remU a' b') := getX_of_aluX2 hr0 hr
    have hQ' : Q' = divU a' b' := (congrArg low32 hQ).trans (low32_sext64 _)
    have hR' : R' = remU a' b' := (congrArg low32 hR).trans (low32_sext64 _)
    rw [hQ', hR', hQ]
    refine ⟨rfl, hR, divU_remU_law, fun hb => ?_⟩
    rw [hb, divU_zero, remU_zero]
    exact ⟨by decide, rfl⟩

end Sys2Proof.Machine
end

section
/-! PROOFS. Atomics: the statements on 42_atomics.md. -/
namespace Sys2Proof.Machine

variable {s : State} {m n : Nat} {rd rs1 rs2 : Reg}

/-! ### The operand of an atomic, 20_memory.md R51 -/

/-- The four bytes from `j` above `a` on, the lowest address least significant. -/
abbrev State.word32From (s : State) (a : Word) (j : Nat) : Word32 :=
  s.byteFrom a (j + 3) ++ s.byteFrom a (j + 2) ++ s.byteFrom a (j + 1) ++ s.byteFrom a j

/-- The eight bytes from `a` on, the lowest address least significant. -/
abbrev State.word64From (s : State) (a : Word) : Word :=
  s.byteFrom a 7 ++ s.byteFrom a 6 ++ s.byteFrom a 5 ++ s.byteFrom a 4 ++ s.word32From a 0

theorem loadLE_eq_word32From (s : State) (a : Word) (j : Nat) :
    loadLE s.mem (a + BitVec.ofNat 64 j) 4 = (s.word32From a j).setWidth 64 :=
  loadLE_add (k := 3) (loadLE_one s _) <| loadLE_add (k := 2) (loadLE_one s _) <|
    loadLE_add (k := 1) (loadLE_one s _) (loadLE_one s _)

theorem low32_loadLE_four (s : State) (a : Word) : low32 (loadLE s.mem a 4) = s.word32From a 0 := by
  have h := loadLE_eq_word32From s a 0
  rw [BitVec.add_zero] at h
  rw [h, low32, BitVec.setWidth_setWidth_of_le _ (by decide), BitVec.setWidth_eq]

theorem loadLE_eq_word64From (s : State) (a : Word) : loadLE s.mem a 8 = s.word64From a := by
  have h := loadLE_add (k := 4) (loadLE_eq_word32From s a 0) (loadLE_eq_word32From s a 4)
  rw [BitVec.add_zero] at h
  exact h.trans (BitVec.setWidth_eq _)

/-! ### The shapes when the facade serves them, 20_memory.md R57 -/

theorem loadReserved_eq_next {v : Word} (hs : Serves s [.readX rs1, .writePc]) (hd : ServesX s rd)
    (ha : (s.getX rs1).toNat % n = 0) (hm : s.refuses (.readMem n (s.getX rs1)) = false)
    (hv : sext64 ((loadLE s.mem (s.getX rs1) n).setWidth m) = v) :
    loadReserved m n rd rs1 s = .next (((s.setResv (some (s.getX rs1))).setX rd v).withPc (s.pc + 4)) := by
  subst hv
  exact loadReserved_next.mpr ⟨hs _ (by simp), ha, hm, hd, hs _ (by simp), rfl⟩

theorem storeConditional_eq_next_of_ne (hs : Serves s [.readX rs1, .writePc]) (hd : ServesX s rd)
    (h2 : s.refuses (.readX rs2) = false) (ha : (s.getX rs1).toNat % n = 0) (hr : s.resv ≠ some (s.getX rs1)) :
    storeConditional n rd rs1 rs2 s = .next (((s.setResv none).setX rd 1).withPc (s.pc + 4)) :=
  storeConditional_next.mpr ⟨hs _ (by simp), h2, ha, hd, hs _ (by simp), by rw [if_neg hr]⟩

theorem exists_mem_of_storeConditional (hs : Serves s [.readX rs1, .writePc]) (hd : ServesX s rd)
    (h2 : s.refuses (.readX rs2) = false) (ha : (s.getX rs1).toNat % n = 0) (hr : s.resv = some (s.getX rs1))
    (hm : s.refuses (.writeMem n (s.getX rs1)) = false) (hn : n ≤ 2 ^ 64 := by decide) :
    ∃ mem, storeConditional n rd rs1 rs2 s =
        .next ((((s.withMem mem).setResv none).setX rd 0).withPc (s.pc + 4)) ∧
      StoresBytes s (s.withMem mem) (s.getX rs1) (s.getX rs2) n :=
  ⟨_, storeConditional_next.mpr ⟨hs _ (by simp), h2, ha, hd, hs _ (by simp), by rw [if_pos hr]; exact ⟨hm, rfl⟩⟩,
    storesBytes_of_mem_eq hn rfl⟩

/-- An AMO that is served gives `rd` the old value `t` and memory the new value `u`. -/
theorem exists_mem_of_amo {g : BitVec m → BitVec m → BitVec m} {t u : BitVec m}
    (hs : Serves s [.readX rs1, .readX rs2, .readMem n (s.getX rs1), .writeMem n (s.getX rs1), .writePc])
    (hd : ServesX s rd) (ha : (s.getX rs1).toNat % n = 0) (ht : (loadLE s.mem (s.getX rs1) n).setWidth m = t)
    (hu : g t ((s.getX rs2).setWidth m) = u) (hn : n ≤ 2 ^ 64 := by decide) :
    ∃ mem, amo m n g rd rs1 rs2 s = .next (((s.withMem mem).setX rd (t.signExtend 64)).withPc (s.pc + 4)) ∧
      StoresBytes s (s.withMem mem) (s.getX rs1) (u.setWidth 64) n := by
  subst ht hu
  obtain ⟨h1, h2, hr, hw, hpc, -⟩ : _ ∧ _ ∧ _ ∧ _ ∧ _ := by simpa only [Serves, List.forall_mem_cons] using hs
  exact ⟨_, amo_next.mpr ⟨h1, h2, ha, hr, hw, hd, hpc, rfl⟩, storesBytes_of_mem_eq hn rfl⟩

theorem exists_mem_of_amoW {g : Word32 → Word32 → Word32} {u : Word32}
    (hs : Serves s [.readX rs1, .readX rs2, .readMem 4 (s.getX rs1), .writeMem 4 (s.getX rs1), .writePc])
    (hd : ServesX s rd) (ha : (s.getX rs1).toNat % 4 = 0)
    (hu : g (s.word32From (s.getX rs1) 0) (low32 (s.getX rs2)) = u) :
    ∃ mem, amo 32 4 g rd rs1 rs2 s =
        .next (((s.withMem mem).setX rd ((s.word32From (s.getX rs1) 0).signExtend 64)).withPc (s.pc + 4)) ∧
      StoresBytes s (s.withMem mem) (s.getX rs1) (u.setWidth 64) 4 :=
  exists_mem_of_amo hs hd ha (low32_loadLE_four s _) hu

/-- In the doubleword form neither value is widened. -/
theorem exists_mem_of_amoD {g : Word → Word → Word} {u : Word}
    (hs : Serves s [.readX rs1, .readX rs2, .readMem 8 (s.getX rs1), .writeMem 8 (s.getX rs1), .writePc])
    (hd : ServesX s rd) (ha : (s.getX rs1).toNat % 8 = 0) (hu : g (s.word64From (s.getX rs1)) (s.getX rs2) = u) :
    ∃ mem, amo 64 8 g rd rs1 rs2 s = .next (((s.withMem mem).setX rd (s.word64From (s.getX rs1))).withPc (s.pc + 4)) ∧
      StoresBytes s (s.withMem mem) (s.getX rs1) u 8 := by
  have h := exists_mem_of_amo (g := g) hs hd ha rfl rfl
  simpa only [BitVec.signExtend_eq, BitVec.setWidth_eq, loadLE_eq_word64From, hu] using h

/-! ### Minimum and maximum, R229 to R232 and R240 to R243 -/

/-- A minimum takes either value when they are equal, so the strict comparison chooses alike. -/
theorem ite_le_eq_ite_lt {α β : Type} [LinearOrder β] {f : α → β} (hf : f.Injective) (t v : α) :
    (if f t ≤ f v then t else v) = if f t < f v then t else v := by
  rcases lt_trichotomy (f t) (f v) with h | h | h
  · rw [if_pos h.le, if_pos h]
  · rw [hf h, ite_self, ite_self]
  · rw [if_neg h.not_ge, if_neg h.not_gt]

theorem amoMin_eq_ite_slt (t v : BitVec m) : amoMin t v = if t.slt v then t else v := by
  simpa only [amoMin, BitVec.slt_iff_toInt_lt] using ite_le_eq_ite_lt (fun _ _ => BitVec.eq_of_toInt_eq) t v

theorem amoMax_eq_ite_slt (t v : BitVec m) : amoMax t v = if t.slt v then v else t := by
  simp only [amoMax, BitVec.slt_iff_toInt_lt, ← not_lt, ite_not]

theorem amoMinu_eq_ite_ult (t v : BitVec m) : amoMinu t v = if t.ult v then t else v := by
  simpa only [amoMinu, BitVec.ult_iff_toNat_lt] using ite_le_eq_ite_lt BitVec.toNat_injective t v

theorem amoMaxu_eq_ite_ult (t v : BitVec m) : amoMaxu t v = if t.ult v then v else t := by
  simp only [amoMaxu, BitVec.ult_iff_toNat_lt, ← not_lt, ite_not]

/-! ### The statements -/

/-- Settles O41, by the shapes of LR and SC; the two SC clauses are the two reservations. -/
theorem reservedPairResults : Obligations.ReservedPairResults := by
  intro s rd rs1 rs2 q hs hd a b w puts
  refine ⟨fun ha hm => ?lrW, fun ha hm => ?lrD, fun i n hi h2 ha => ⟨fun hr => ?scFails, fun hr hm => ?scStores⟩⟩
  case lrW => exact loadReserved_eq_next hs hd ha hm (congrArg sext64 (low32_loadLE_four s a))
  case lrD =>
    apply loadReserved_eq_next hs hd ha hm
    rw [BitVec.setWidth_eq, sext64, BitVec.signExtend_eq]
    exact loadLE_eq_word64From s a
  all_goals
    simp only [List.mem_cons, Prod.mk.injEq, List.not_mem_nil, or_false] at hi
    obtain ⟨rfl, rfl⟩ | ⟨rfl, rfl⟩ := hi
  case scFails.inl | scFails.inr => exact storeConditional_eq_next_of_ne hs hd h2 ha hr
  case scStores.inl | scStores.inr => exact exists_mem_of_storeConditional hs hd h2 ha hr hm

/-- Settles O42: in each width the five operations without a choice are the model's own, and the minima and maxima agree
with the comparisons. -/
theorem amoResults : Obligations.AmoResults := by
  intro s rd rs1 rs2 q a b t T v V i n old new hi hs hd ha
  simp only [List.mem_cons, Prod.mk.injEq, List.not_mem_nil, or_false] at hi
  obtain ⟨rfl, rfl, rfl, rfl⟩ | ⟨rfl, rfl, rfl, rfl⟩ | ⟨rfl, rfl, rfl, rfl⟩ | ⟨rfl, rfl, rfl, rfl⟩ |
    ⟨rfl, rfl, rfl, rfl⟩ | ⟨rfl, rfl, rfl, rfl⟩ | ⟨rfl, rfl, rfl, rfl⟩ | ⟨rfl, rfl, rfl, rfl⟩ | ⟨rfl, rfl, rfl, rfl⟩ |
    ⟨rfl, rfl, rfl, rfl⟩ | ⟨rfl, rfl, rfl, rfl⟩ | ⟨rfl, rfl, rfl, rfl⟩ | ⟨rfl, rfl, rfl, rfl⟩ | ⟨rfl, rfl, rfl, rfl⟩ |
    ⟨rfl, rfl, rfl, rfl⟩ | ⟨rfl, rfl, rfl, rfl⟩ | ⟨rfl, rfl, rfl, rfl⟩ | ⟨rfl, rfl, rfl, rfl⟩ := hi
  iterate 5 · exact exists_mem_of_amoW hs hd ha rfl
  · exact exists_mem_of_amoW hs hd ha (amoMin_eq_ite_slt t v)
  · exact exists_mem_of_amoW hs hd ha (amoMax_eq_ite_slt t v)
  · exact exists_mem_of_amoW hs hd ha (amoMinu_eq_ite_ult t v)
  · exact exists_mem_of_amoW hs hd ha (amoMaxu_eq_ite_ult t v)
  iterate 5 · exact exists_mem_of_amoD hs hd ha rfl
  · exact exists_mem_of_amoD hs hd ha (amoMin_eq_ite_slt T V)
  · exact exists_mem_of_amoD hs hd ha (amoMax_eq_ite_slt T V)
  · exact exists_mem_of_amoD hs hd ha (amoMinu_eq_ite_ult T V)
  · exact exists_mem_of_amoD hs hd ha (amoMaxu_eq_ite_ult T V)

/-- Settles O44: in each of the forms neither the decoded variant nor the meaning takes the two bits. -/
theorem acquireReleaseIgnored : Obligations.AcquireReleaseIgnored := by
  intro s rd rs1 rs2 q q' raw f hf
  simp only [List.mem_cons, List.not_mem_nil, or_false] at hf
  obtain rfl | rfl | rfl | rfl | rfl | rfl | rfl | rfl | rfl | rfl | rfl | rfl | rfl | rfl | rfl | rfl | rfl | rfl |
    rfl | rfl | rfl | rfl := hf <;> exact ⟨rfl, rfl⟩

end Sys2Proof.Machine
end

section
/-! PROOFS. FloatFormat: a pattern as its sign and its low 31 bits, which number the magnitudes in rising order
(43_float.md R250). -/
namespace Sys2Proof.Machine

/-! ### The magnitude a number of 31 bits stands for -/

/-- The low 31 bits of a pattern. -/
def fMag (a : Word32) : Nat := a.toNat % 2 ^ 31

/-- The magnitude of exponent and fraction `b`, in units of 2^-149 (R250); above the format's infinity it goes on as if
there were more exponents. -/
def magUnits (b : Nat) : Nat := if b / 2 ^ 23 = 0 then b % 2 ^ 23 else (2 ^ 23 + b % 2 ^ 23) * 2 ^ (b / 2 ^ 23 - 1)

/-- A significand `q` of unit `2 ^ t`: 24 bits with the leading one, fewer in the lowest binade; 2^24 is the carry. -/
theorem magUnits_add {t q : Nat} (hq : q ≤ 2 ^ 24) (ht : t = 0 ∨ 2 ^ 23 ≤ q) :
    magUnits (t * 2 ^ 23 + q) = q * 2 ^ t := by
  unfold magUnits
  by_cases hsub : q < 2 ^ 23
  · have ht0 : t = 0 := by omega
    subst ht0
    rw [if_pos (by omega), pow_zero]
    omega
  by_cases hcarry : q = 2 ^ 24
  · subst hcarry
    have he : (t * 2 ^ 23 + 2 ^ 24) / 2 ^ 23 = t + 2 := by omega
    have hf : (t * 2 ^ 23 + 2 ^ 24) % 2 ^ 23 = 0 := by omega
    rw [he, hf, if_neg (by omega), Nat.add_sub_assoc (by decide), Nat.pow_add]
    omega
  · have he : (t * 2 ^ 23 + q) / 2 ^ 23 = t + 1 := by omega
    have hf : 2 ^ 23 + (t * 2 ^ 23 + q) % 2 ^ 23 = q := by omega
    rw [he, hf, if_neg (by omega), Nat.add_sub_cancel]

theorem magUnits_strictMono : StrictMono magUnits := by
  refine strictMono_nat_of_lt_succ fun b => ?_
  obtain ⟨t, q, rfl, hq, ht⟩ : ∃ t q, b = t * 2 ^ 23 + q ∧ q < 2 ^ 24 ∧ (t = 0 ∨ 2 ^ 23 ≤ q) :=
    ⟨b / 2 ^ 23 - 1, b - (b / 2 ^ 23 - 1) * 2 ^ 23, by omega, by omega, by omega⟩
  rw [Nat.add_assoc, magUnits_add hq.le ht, magUnits_add hq (by omega)]
  exact Nat.mul_lt_mul_of_pos_right (Nat.lt_succ_self q) (by positivity)

theorem magUnits_le_iff {b c : Nat} : magUnits b ≤ magUnits c ↔ b ≤ c := magUnits_strictMono.le_iff_le

theorem magUnits_lt_iff {b c : Nat} : magUnits b < magUnits c ↔ b < c := magUnits_strictMono.lt_iff_lt

/-! ### Patterns -/

theorem fMag_lt (a : Word32) : fMag a < 2 ^ 31 := Nat.mod_lt _ (by decide)

theorem fExp_eq (a : Word32) : fExp a = fMag a / 2 ^ 23 := by
  rw [fExp, BitVec.extractLsb_toNat, Nat.shiftRight_eq_div_pow, fMag]
  omega

theorem fFrac_eq (a : Word32) : fFrac a = fMag a % 2 ^ 23 := by
  rw [fFrac, BitVec.extractLsb_toNat, Nat.shiftRight_eq_div_pow, fMag]
  omega

theorem fUnits_eq (a : Word32) : fUnits a = magUnits (fMag a) := by
  rw [fUnits, fExp_eq, fFrac_eq]
  rfl

theorem isNaN_iff {a : Word32} : isNaN a = true ↔ 0x7F800000 < fMag a := by
  have := fMag_lt a
  rw [isNaN, fExp_eq, fFrac_eq, Bool.and_eq_true, beq_iff_eq, bne_iff_ne]
  omega

theorem isInf_iff {a : Word32} : isInf a = true ↔ fMag a = 0x7F800000 := by
  rw [isInf, fExp_eq, fFrac_eq, Bool.and_eq_true, beq_iff_eq, beq_iff_eq]
  omega

theorem isZero_iff {a : Word32} : isZero a = true ↔ fMag a = 0 := by
  rw [isZero, fExp_eq, fFrac_eq, Bool.and_eq_true, beq_iff_eq, beq_iff_eq]
  omega

theorem finite_iff {a : Word32} : isNaN a = false ∧ isInf a = false ↔ fMag a < 0x7F800000 := by
  rw [← Bool.not_eq_true, ← Bool.not_eq_true, isNaN_iff, isInf_iff]
  omega

/-! ### The classes of R250 exclude each other -/

section

variable {a : Word32}

theorem isNaN_of_isInf (h : isInf a = true) : isNaN a = false := by
  rw [← Bool.not_eq_true, isNaN_iff, isInf_iff.mp h]
  decide

theorem isZero_of_isInf (h : isInf a = true) : isZero a = false := by
  rw [← Bool.not_eq_true, isZero_iff, isInf_iff.mp h]
  decide

theorem finite_of_isZero (h : isZero a = true) : isNaN a = false ∧ isInf a = false := by
  rw [finite_iff, isZero_iff.mp h]
  decide

end

/-! ### A pattern and its two parts -/

theorem fMag_eq_setWidth (a : Word32) : fMag a = (a.setWidth 31).toNat := (BitVec.toNat_setWidth ..).symm

/-- A pattern is its sign and its low 31 bits. -/
theorem eq_of_msb_of_fMag {a b : Word32} (hs : a.msb = b.msb) (hm : fMag a = fMag b) : a = b := by
  apply BitVec.eq_of_toNat_eq
  have ha := a.isLt
  have hb := b.isLt
  rw [BitVec.msb_eq_decide, BitVec.msb_eq_decide, decide_eq_decide] at hs
  unfold fMag at hm
  omega

@[simp] theorem msb_fPack (neg : Bool) (b : Nat) : (fPack neg b).msb = neg := by
  rw [fPack, BitVec.msb_append]
  simp

theorem fMag_fPack (neg : Bool) {b : Nat} (hb : b < 2 ^ 31) : fMag (fPack neg b) = b := by
  rw [fMag_eq_setWidth, fPack, BitVec.setWidth_append]
  simpa using hb

theorem fPack_msb_fMag (a : Word32) : fPack a.msb (fMag a) = a :=
  eq_of_msb_of_fMag (msb_fPack ..) (fMag_fPack _ (fMag_lt a))

theorem getLsbD_zero_eq (a : Word32) : a.getLsbD 0 = decide (fMag a % 2 = 1) := by
  have h : a.toNat % 2 = fMag a % 2 := by unfold fMag; omega
  rw [← h, BitVec.getLsbD, Nat.testBit_zero]

end Sys2Proof.Machine
end

section
/-! PROOFS. Rounding: what the decision of a mode to round up makes of a value between two neighbours of a grid
(43_float.md R251). -/
namespace Sys2Proof.Machine

/-! ### The modes, by where they round to -/

/-- The modes that round a value of sign `neg` toward zero. -/
def TowardZero (m : RoundingMode) (neg : Bool) : Prop := m = .rtz ∨ m = .rdn ∧ neg = false ∨ m = .rup ∧ neg = true

/-- The modes that round a value of sign `neg` away from zero. -/
def AwayFromZero (m : RoundingMode) (neg : Bool) : Prop := m = .rup ∧ neg = false ∨ m = .rdn ∧ neg = true

/-- The modes that round to nearest. -/
def ToNearest (m : RoundingMode) : Prop := m = .rne ∨ m = .rmm

variable {m : RoundingMode} {neg : Bool} {b r d : Nat}

theorem roundNat_of_towardZero (hm : TowardZero m neg) : roundNat m neg b r d = b := by
  obtain rfl | ⟨rfl, rfl⟩ | ⟨rfl, rfl⟩ := hm <;> rfl

theorem roundNat_of_awayFromZero (hm : AwayFromZero m neg) : roundNat m neg b r d = if r = 0 then b else b + 1 := by
  obtain ⟨rfl, rfl⟩ | ⟨rfl, rfl⟩ := hm <;> by_cases h : r = 0 <;> simp [roundNat, roundsUp, h]

/-- To nearest the result is a neighbour that is not the farther one, and at a tie the one the mode prefers. -/
theorem roundNat_of_toNearest (hm : ToNearest m) (neg : Bool) (b r d : Nat) :
    roundNat m neg b r d = b ∧ 2 * r ≤ d ∧ (2 * r = d → m = .rne ∧ b % 2 = 0) ∨
    roundNat m neg b r d = b + 1 ∧ d ≤ 2 * r ∧ (2 * r = d → m = .rne → (b + 1) % 2 = 0) := by
  obtain rfl | rfl := hm
  · by_cases h : d < 2 * r ∨ 2 * r = d ∧ b % 2 = 1
    · right
      have hu : roundsUp .rne neg b r d = true := by simpa [roundsUp] using h
      rw [roundNat, hu]
      exact ⟨rfl, by omega, by omega⟩
    · left
      have hu : roundsUp .rne neg b r d = false := by
        rw [← Bool.not_eq_true]
        simpa [roundsUp] using h
      rw [roundNat, hu]
      exact ⟨rfl, by omega, fun _ => ⟨rfl, by omega⟩⟩
  · by_cases h : d ≤ 2 * r
    · right
      have hu : roundsUp .rmm neg b r d = true := decide_eq_true h
      rw [roundNat, hu]
      exact ⟨rfl, h, fun _ => nofun⟩
    · left
      have hu : roundsUp .rmm neg b r d = false := decide_eq_false h
      rw [roundNat, hu]
      exact ⟨rfl, by omega, by omega⟩

theorem roundNat_le (m : RoundingMode) (neg : Bool) (b r d : Nat) : roundNat m neg b r d ≤ b + 1 :=
  Nat.add_le_add_left (Bool.toNat_le _) b

/-- An exact value is not changed by any mode. -/
theorem roundNat_zero (hd : 0 < d) : roundNat m neg b 0 d = b := by
  cases m <;> simp [roundNat, roundsUp, hd.ne, hd.ne']

/-- The parity alone of the lower neighbour counts. -/
theorem add_roundNat {c : Nat} (hc : c % 2 = 0) : c + roundNat m neg b r d = roundNat m neg (c + b) r d := by
  have h : (c + b) % 2 = b % 2 := by omega
  rw [roundNat, roundNat, Nat.add_assoc]
  cases m <;> simp only [roundsUp, h]

/-! ### A value between two neighbours of a grid -/

/-- A value from `lo` up to `hi` units, and how `r` over `d` says it compares with `lo` and with the half-way point. The
value is known by its comparisons alone: it is at least `k` half-units when `φ k ≤ X`, so that a fraction is compared
through products (`φ k = k * d`) and a root through squares (`φ k = k ^ 2`). -/
structure Between (φ : Nat → Nat) (X lo hi r d : Nat) : Prop where
  lo_le : φ (2 * lo) ≤ X
  lt_hi : X < φ (2 * hi)
  exact : r = 0 → φ (2 * lo) = X
  inexact : r ≠ 0 → φ (2 * lo) < X
  half_le : d ≤ 2 * r → φ (lo + hi) ≤ X
  le_half : 2 * r ≤ d → X ≤ φ (lo + hi)

section

variable {φ g : Nat → Nat} {X : Nat} (hφ : StrictMono φ) (hg : StrictMono g) (h : Between φ X (g b) (g (b + 1)) r d)
include hφ hg h

theorem Between.le_iff {k : Nat} : φ (2 * g k) ≤ X ↔ k ≤ b := by
  constructor
  · intro hk
    have hlt : 2 * g k < 2 * g (b + 1) := hφ.lt_iff_lt.mp (hk.trans_lt h.lt_hi)
    exact Nat.lt_succ_iff.mp (hg.lt_iff_lt.mp (show g k < g (b + 1) by omega))
  · intro hk
    exact (hφ.monotone (Nat.mul_le_mul_left 2 (hg.monotone hk))).trans h.lo_le

/-- Away from zero the result is the least number whose magnitude is not below the value. -/
theorem Between.roundNat_le_iff (hm : AwayFromZero m neg) {k : Nat} :
    roundNat m neg b r d ≤ k ↔ X ≤ φ (2 * g k) := by
  rw [roundNat_of_awayFromZero hm]
  split
  next hr =>
    rw [← h.exact hr, hφ.le_iff_le, Nat.mul_le_mul_left_iff (by decide), hg.le_iff_le]
  next hr =>
    constructor
    · intro hk
      exact h.lt_hi.le.trans (hφ.monotone (Nat.mul_le_mul_left 2 (hg.monotone hk)))
    · intro hk
      have hlt : 2 * g b < 2 * g k := hφ.lt_iff_lt.mp ((h.inexact hr).trans_le hk)
      exact hg.lt_iff_lt.mp (by omega)

/-- To nearest the value is not below the half-way point to any smaller number of the grid. -/
theorem Between.half_le_of_lt (hm : ToNearest m) {k : Nat} (hk : k < roundNat m neg b r d) :
    φ (g k + g (roundNat m neg b r d)) ≤ X := by
  obtain ⟨e, -, -⟩ | ⟨e, hr, -⟩ := roundNat_of_toNearest hm neg b r d <;> rw [e] at hk ⊢
  · have := hg hk
    exact (hφ.monotone (by omega)).trans h.lo_le
  · have : g k ≤ g b := hg.monotone (Nat.lt_succ_iff.mp hk)
    exact (hφ.monotone (by omega)).trans (h.half_le hr)

/-- To nearest the value is not above the half-way point to any larger number of the grid. -/
theorem Between.le_half_of_lt (hm : ToNearest m) {k : Nat} (hk : roundNat m neg b r d < k) :
    X ≤ φ (g k + g (roundNat m neg b r d)) := by
  obtain ⟨e, hr, -⟩ | ⟨e, -, -⟩ := roundNat_of_toNearest hm neg b r d <;> rw [e] at hk ⊢
  · have : g (b + 1) ≤ g k := hg.monotone hk
    exact (h.le_half hr).trans (hφ.monotone (by omega))
  · have := hg hk
    exact h.lt_hi.le.trans (hφ.monotone (by omega))

/-- At a half-way point the result is the even number in RNE, the larger one in RMM. -/
theorem Between.of_tie (hm : ToNearest m) (htie : φ (g b + g (b + 1)) = X → 2 * r = d) {k : Nat}
    (hk : k ≠ roundNat m neg b r d) (hX : φ (g k + g (roundNat m neg b r d)) = X) :
    (m = .rne → roundNat m neg b r d % 2 = 0) ∧ (m = .rmm → k < roundNat m neg b r d) := by
  obtain ⟨e, hr, ht⟩ | ⟨e, hr, ht⟩ := roundNat_of_toNearest hm neg b r d <;>
    rw [e] at hk hX ⊢
  · have hbk : b < k := by
      by_contra hle
      have hlt : g k + g b < 2 * g b := by have := hg (show k < b by omega); omega
      exact absurd h.lo_le (hX ▸ hφ hlt).not_ge
    have hX' : φ (g b + g (b + 1)) ≤ X := by
      have hle : g (b + 1) ≤ g k := hg.monotone hbk
      exact hX ▸ hφ.monotone (by omega)
    obtain ⟨rfl, hb⟩ := ht (htie (hX'.antisymm (h.le_half hr)))
    exact ⟨fun _ => hb, nofun⟩
  · have hkb : k < b + 1 := by
      by_contra hle
      have hlt : 2 * g (b + 1) < g k + g (b + 1) := by have := hg (show b + 1 < k by omega); omega
      exact absurd h.lt_hi (hX ▸ hφ hlt).not_gt
    have hX' : X ≤ φ (g b + g (b + 1)) := by
      have hle : g k ≤ g b := hg.monotone (Nat.lt_succ_iff.mp hkb)
      exact hX ▸ hφ.monotone (by omega)
    exact ⟨ht (htie ((h.half_le hr).antisymm hX')), fun _ => hkb⟩

/-- To nearest, an even number of the grid is reached exactly from the half-way point below it on. -/
theorem Between.lt_roundNat_iff (hm : ToNearest m) (htie : φ (g b + g (b + 1)) = X → 2 * r = d) {k : Nat}
    (hk : (k + 1) % 2 = 0) : k < roundNat m neg b r d ↔ φ (g k + g (k + 1)) ≤ X := by
  constructor
  · intro hlt
    have hle : g (k + 1) ≤ g (roundNat m neg b r d) := hg.monotone hlt
    exact (hφ.monotone (by omega)).trans (h.half_le_of_lt hφ hg hm hlt)
  · intro hX
    by_contra hle
    have hX' := h.le_half_of_lt hφ hg hm (neg := neg) (show roundNat m neg b r d < k + 1 by omega)
    have hgk : g (roundNat m neg b r d) ≤ g k := hg.monotone (not_lt.mp hle)
    have hge := hφ.le_iff_le.mp (hX.trans hX')
    have hc : roundNat m neg b r d = k := hg.injective (by omega)
    rw [hc, Nat.add_comm] at hX'
    obtain ⟨hne, hmm⟩ := h.of_tie hφ hg hm htie (neg := neg) (k := k + 1) (by omega)
      (by rw [hc, Nat.add_comm]; exact hX.antisymm hX')
    obtain rfl | rfl := hm
    · have := hne rfl; omega
    · exact hle ((Nat.lt_succ_self k).trans (hmm rfl))

end

end Sys2Proof.Machine
end

section
/-! PROOFS. FloatRounding: the rounding of a fraction to a pattern (43_float.md R252). -/
namespace Sys2Proof.Machine

variable {m : RoundingMode} {neg : Bool}

/-! ### The exact value of a fraction -/

theorem strictMono_mul_right {d : Nat} (hd : 0 < d) : StrictMono (· * d) :=
  fun _ _ h => Nat.mul_lt_mul_of_pos_right h hd

/-- `n / d` stands between two multiples of any unit `u`. -/
theorem between_div (n : Nat) {d u : Nat} (hd : 0 < d) (hu : 0 < u) :
    Between (· * d) (2 * n) (n / (d * u) * u) ((n / (d * u) + 1) * u) (n % (d * u)) (d * u) := by
  have hlt : n % (d * u) < d * u := Nat.mod_lt _ (Nat.mul_pos hd hu)
  have hn := Nat.div_add_mod n (d * u)
  generalize n / (d * u) = q at *
  generalize n % (d * u) = r at *
  have hlo : 2 * (q * u) * d = 2 * (d * u * q) := by ring
  have hhi : 2 * ((q + 1) * u) * d = 2 * (d * u * q) + 2 * (d * u) := by ring
  have hmid : (q * u + (q + 1) * u) * d = 2 * (d * u * q) + d * u := by ring
  constructor <;> simp only [hlo, hhi, hmid] <;> omega

theorem two_mul_mod_of_tie {n d u : Nat} (h : (n / (d * u) * u + (n / (d * u) + 1) * u) * d = 2 * n) :
    2 * (n % (d * u)) = d * u := by
  have hn := Nat.div_add_mod n (d * u)
  generalize n / (d * u) = q at *
  have hmid : (q * u + (q + 1) * u) * d = 2 * (d * u * q) + d * u := by ring
  omega

/-! ### The result, R252 -/

theorem div_pow_excessBits_bounds (q : Nat) :
    q / 2 ^ excessBits q < 2 ^ 24 ∧ (excessBits q = 0 ∨ 2 ^ 23 ≤ q / 2 ^ excessBits q) := by
  unfold excessBits
  by_cases hq : q.log2 ≤ 23
  · have : q < 2 ^ 24 := Nat.lt_log2_self.trans_le (Nat.pow_le_pow_right (by decide) (by omega))
    rw [Nat.sub_eq_zero_of_le hq]
    omega
  · have hq0 : q ≠ 0 := by rintro rfl; exact hq (by decide)
    refine ⟨Nat.div_lt_of_lt_mul ?_, .inr ((Nat.le_div_iff_mul_le (by positivity)).mpr ?_)⟩
    · rw [← Nat.pow_add, show q.log2 - 23 + 24 = q.log2 + 1 by omega]
      exact Nat.lt_log2_self
    · rw [← Nat.pow_add, show 23 + (q.log2 - 23) = q.log2 by omega]
      exact Nat.log2_self_le hq0

/-- Rounding a fraction is rounding, to a number of 31 bits, a value between the magnitudes of two such numbers. -/
theorem roundS_spec (m : RoundingMode) (neg : Bool) (n : Nat) {d : Nat} (hd : 0 < d) :
    ∃ b r D, 0 < D ∧ Between (· * d) (2 * n) (magUnits b) (magUnits (b + 1)) r D ∧
      ((magUnits b + magUnits (b + 1)) * d = 2 * n → 2 * r = D) ∧
      roundS m neg n d = overflowPack m neg (roundNat m neg b r D) := by
  obtain ⟨hq, ht⟩ := div_pow_excessBits_bounds (n / d)
  rw [Nat.div_div_eq_div_mul] at hq ht
  generalize ht' : excessBits (n / d) = t at hq ht
  have hu : 0 < 2 ^ t := by positivity
  refine ⟨t * 2 ^ 23 + n / (d * 2 ^ t), n % (d * 2 ^ t), d * 2 ^ t, Nat.mul_pos hd hu, ?_⟩
  rw [Nat.add_assoc, magUnits_add hq.le ht, magUnits_add hq (by omega)]
  exact ⟨between_div n hd hu, two_mul_mod_of_tie, by rw [roundS, ht', add_roundNat (by omega)]⟩

@[simp] theorem msb_overflowPack (m : RoundingMode) (neg : Bool) (b : Nat) : (overflowPack m neg b).msb = neg := by
  unfold overflowPack
  cases m <;> cases neg <;> split <;> simp [fInf]

theorem fMag_overflowPack_of_lt {b : Nat} (hb : b < 0x7F800000) : fMag (overflowPack m neg b) = b := by
  unfold overflowPack
  rw [if_pos hb, fMag_fPack _ (by omega)]

theorem fMag_overflowPack_of_towardZero (hm : TowardZero m neg) (b : Nat) :
    fMag (overflowPack m neg b) = min b 0x7F7FFFFF := by
  by_cases hb : b < 0x7F800000
  · rw [fMag_overflowPack_of_lt hb]; omega
  · unfold overflowPack
    rw [if_neg hb, Nat.min_eq_right (by omega)]
    obtain rfl | ⟨rfl, rfl⟩ | ⟨rfl, rfl⟩ := hm <;> exact fMag_fPack _ (by decide)

theorem fMag_overflowPack (hm : AwayFromZero m neg ∨ ToNearest m) (b : Nat) :
    fMag (overflowPack m neg b) = min b 0x7F800000 := by
  by_cases hb : b < 0x7F800000
  · rw [fMag_overflowPack_of_lt hb]; omega
  · unfold overflowPack
    rw [if_neg hb, Nat.min_eq_right (by omega)]
    obtain (⟨rfl, rfl⟩ | ⟨rfl, rfl⟩) | rfl | rfl := hm <;> exact fMag_fPack _ (by decide)

theorem fUnits_largest : fUnits 0x7F7FFFFF = magUnits 0x7F7FFFFF := fUnits_eq _

theorem two_mul_mul_le_iff {u d n : Nat} : 2 * u * d ≤ 2 * n ↔ u * d ≤ n := by
  rw [Nat.mul_assoc, Nat.mul_le_mul_left_iff (by decide)]

theorem two_mul_le_mul_iff {u d n : Nat} : 2 * n ≤ 2 * u * d ↔ n ≤ u * d := by
  rw [Nat.mul_assoc, Nat.mul_le_mul_left_iff (by decide)]

/-- Settles O53: among the numbers of 31 bits the result is the largest below or the least above. -/
theorem roundDirected : Obligations.RoundDirected := by
  intro m neg n d hn hd v
  obtain ⟨b, r, D, -, h, -, hv⟩ := roundS_spec m neg n hd
  change v = _ at hv
  have hφ := strictMono_mul_right hd
  have hmsb : v.msb = neg := by rw [hv, msb_overflowPack]
  refine ⟨fun hm => ?toward, fun hm => ?away⟩
  case toward =>
    have hmag : fMag v = min b 0x7F7FFFFF := by
      rw [hv, roundNat_of_towardZero hm, fMag_overflowPack_of_towardZero hm]
    have hle {k : Nat} : magUnits k * d ≤ n ↔ k ≤ b := two_mul_mul_le_iff.symm.trans (h.le_iff hφ magUnits_strictMono)
    obtain ⟨hnan, hinf⟩ := finite_iff.mpr (show fMag v < 0x7F800000 by omega)
    refine ⟨hmsb, hnan, hinf, ?_, fun q hq hq' => ?_⟩
    · rw [fUnits_eq, hle]; omega
    · have hqlt := finite_iff.mp ⟨hq, hq'⟩
      rw [fUnits_eq, fUnits_eq, hle, magUnits_le_iff]; omega
  case away =>
    have hmag : fMag v = min (roundNat m neg b r D) 0x7F800000 := by rw [hv, fMag_overflowPack (.inl hm)]
    have hle {k : Nat} : n ≤ magUnits k * d ↔ roundNat m neg b r D ≤ k :=
      two_mul_le_mul_iff.symm.trans (h.roundNat_le_iff hφ magUnits_strictMono hm).symm
    refine ⟨hmsb, ?_, ?_, ?_⟩
    · rw [← Bool.not_eq_true, isNaN_iff]; omega
    · rw [fUnits_largest, ← not_le, hle, isInf_iff]; omega
    · rw [fUnits_largest, hle, ← Bool.not_eq_true, isInf_iff, fUnits_eq, hle]
      refine fun hb => ⟨by omega, by omega, fun q hq hq' => ?_⟩
      rw [fUnits_eq, hle, magUnits_le_iff]; omega

/-- The half-way point of two magnitudes decides which is nearer to `n / d`, and they are equally near only there. -/
theorem natAbs_le_of_half {u w n d : Nat} (hd : 0 < d) (hlt : w < u → (w + u) * d ≤ 2 * n)
    (hgt : u < w → 2 * n ≤ (w + u) * d) :
    ((u * d : Nat) - n : Int).natAbs ≤ ((w * d : Nat) - n : Int).natAbs ∧
      (((u * d : Nat) - n : Int).natAbs = ((w * d : Nat) - n : Int).natAbs → w ≠ u → (w + u) * d = 2 * n) := by
  rw [Nat.add_mul] at *
  rcases lt_trichotomy w u with h | rfl | h
  · have := hlt h
    have := Nat.mul_lt_mul_of_pos_right h hd
    omega
  · exact ⟨le_rfl, fun _ hne => absurd rfl hne⟩
  · have := hgt h
    have := Nat.mul_lt_mul_of_pos_right h hd
    omega

/-- Settles O52: the half-way points, against which the result is characterised, order the distances. -/
theorem roundToNearest : Obligations.RoundToNearest := by
  intro m neg n d hm hn hd v
  obtain ⟨b, r, D, -, h, htie, hv⟩ := roundS_spec m neg n hd
  change v = _ at hv
  have hφ := strictMono_mul_right hd
  have hmag : fMag v = min (roundNat m neg b r D) 0x7F800000 := by rw [hv, fMag_overflowPack (.inr hm)]
  have hbelow {k : Nat} := h.half_le_of_lt hφ magUnits_strictMono hm (neg := neg) (k := k)
  have habove {k : Nat} := h.le_half_of_lt hφ magUnits_strictMono hm (neg := neg) (k := k)
  have htied {k : Nat} := h.of_tie hφ magUnits_strictMono hm (neg := neg) htie (k := k)
  have hhalf : (2 ^ 25 - 1) * 2 ^ 253 = magUnits 0x7F7FFFFF + magUnits 0x7F800000 := by decide
  have hinf : (2 ^ 25 - 1) * 2 ^ 253 * d ≤ 2 * n ↔ 0x7F7FFFFF < roundNat m neg b r D :=
    hhalf ▸ (h.lt_roundNat_iff hφ magUnits_strictMono hm htie (k := 0x7F7FFFFF) (by decide)).symm
  rw [← not_le, hinf]
  generalize roundNat m neg b r D = c at *
  refine ⟨by rw [hv, msb_overflowPack], ?nan, fun hc => ?inf, fun hc => ⟨?fin, fun q _ _ => ?near⟩⟩
  case nan => rw [← Bool.not_eq_true, isNaN_iff]; omega
  case inf => rw [isInf_iff]; omega
  case fin => rw [← Bool.not_eq_true, isInf_iff]; omega
  case near =>
    have hvc : fMag v = c := by omega
    rw [fUnits_eq, fUnits_eq, hvc, getLsbD_zero_eq, hvc, magUnits_lt_iff]
    obtain ⟨hle, heq⟩ := natAbs_le_of_half hd (fun hlt => hbelow (magUnits_lt_iff.mp hlt))
      fun hgt => habove (magUnits_lt_iff.mp hgt)
    refine ⟨hle, fun he hne => ?_⟩
    obtain ⟨hrne, hrmm⟩ := htied (fun h => hne (congrArg magUnits h)) (heq he hne)
    exact ⟨fun hm => by simp [hrne hm], hrmm⟩

/-- R252: a value the format holds is not changed by rounding. -/
theorem roundS_exact (m : RoundingMode) {c : Word32} {d : Nat} (hd : 0 < d) (hn : isNaN c = false)
    (hi : isInf c = false) : roundS m c.msb (fUnits c * d) d = c := by
  obtain ⟨b, r, D, hD, h, -, hv⟩ := roundS_spec m c.msb (fUnits c * d) hd
  have hφ := strictMono_mul_right hd
  rw [fUnits_eq, ← Nat.mul_assoc] at h
  have hb : b = fMag c := by
    have hle : fMag c ≤ b := (h.le_iff hφ magUnits_strictMono).mp le_rfl
    have hge : magUnits b ≤ magUnits (fMag c) := by
      have := hφ.le_iff_le.mp h.lo_le
      omega
    exact (magUnits_le_iff.mp hge).antisymm hle
  have hr : r = 0 := by
    by_contra hr
    have := h.inexact hr
    rw [hb] at this
    exact lt_irrefl _ this
  rw [hv, hr, roundNat_zero hD, hb]
  exact eq_of_msb_of_fMag (msb_overflowPack ..) (fMag_overflowPack_of_lt (finite_iff.mp ⟨hn, hi⟩))

end Sys2Proof.Machine
end

section
/-! PROOFS. SquareRoot: the square root (43_float.md R263). -/
namespace Sys2Proof.Machine

/-! ### The integer root -/

theorem isqrtBits_eq_sqrt {n k acc : Nat} (hlo : acc ^ 2 ≤ n) (hhi : n < (acc + 2 ^ k) ^ 2) :
    isqrtBits n k acc = n.sqrt := by
  induction k generalizing acc with
  | zero => exact Nat.eq_sqrt'.mpr ⟨hlo, hhi⟩
  | succ k ih =>
    rw [isqrtBits]
    split
    next h => exact ih h (by rwa [Nat.add_assoc, ← two_mul, ← Nat.pow_succ'])
    next h => exact ih hlo (not_le.mp h)

/-- The root of `v` stands between two multiples of `2 ^ t`. -/
theorem between_sqrt (v t : Nat) :
    Between (· ^ 2) (4 * v) ((v / 4 ^ t).sqrt * 2 ^ t) (((v / 4 ^ t).sqrt + 1) * 2 ^ t)
      (sqrtRem v (v / 4 ^ t).sqrt t) 4 := by
  have hu : 0 < 4 ^ t := by positivity
  have hlo : (v / 4 ^ t).sqrt ^ 2 * 4 ^ t ≤ v := (Nat.le_div_iff_mul_le hu).mp (Nat.sqrt_le' _)
  have hhi : v < ((v / 4 ^ t).sqrt + 1) ^ 2 * 4 ^ t := (Nat.div_lt_iff_lt_mul hu).mp (Nat.lt_succ_sqrt' _)
  generalize (v / 4 ^ t).sqrt = q at *
  have e4 : (4 : Nat) ^ t = (2 ^ t) ^ 2 := Nat.pow_right_comm 2 2 t
  rw [sqrtRem, e4]
  rw [e4] at hlo hhi
  generalize 2 ^ t = u at *
  have elo : (2 * (q * u)) ^ 2 = 4 * (q ^ 2 * u ^ 2) := by ring
  have ehi : (2 * ((q + 1) * u)) ^ 2 = 4 * ((q + 1) ^ 2 * u ^ 2) := by ring
  have emid : (q * u + (q + 1) * u) ^ 2 = (2 * q + 1) ^ 2 * u ^ 2 := by ring
  have hmid : 4 * (q ^ 2 * u ^ 2) ≤ (2 * q + 1) ^ 2 * u ^ 2 := by
    rw [← elo, ← emid, two_mul, Nat.add_one_mul]
    exact Nat.pow_le_pow_left (by omega) 2
  split_ifs
  all_goals constructor <;> simp only [elo, ehi, emid] <;> omega

theorem strictMono_sq : StrictMono fun k : Nat => k ^ 2 := fun _ _ h => Nat.pow_lt_pow_left h (by decide)

/-- The unit `2 ^ t` leaves the root of `v` 24 bits, the leading one among them. -/
theorem sqrt_bounds {v t : Nat} (hv : 46 ≤ v.log2) (ht : v.log2 / 2 - 23 = t) :
    2 ^ 23 ≤ (v / 4 ^ t).sqrt ∧ v / 4 ^ t < 2 ^ 48 := by
  have hv0 : v ≠ 0 := by
    rintro rfl
    exact absurd hv (by decide)
  have e4 : (4 : Nat) ^ t = 2 ^ (2 * t) := (Nat.pow_mul 2 2 t).symm
  rw [Nat.le_sqrt', e4, ← Nat.pow_mul, Nat.le_div_iff_mul_le (by positivity), Nat.div_lt_iff_lt_mul (by positivity),
    ← Nat.pow_add, ← Nat.pow_add, ← Nat.le_log2 hv0, ← Nat.log2_lt hv0]
  omega

/-! ### The root of a pattern -/

theorem magUnits_inf : magUnits 0x7F800000 = 2 ^ 23 * 2 ^ 254 :=
  magUnits_add (t := 254) (q := 2 ^ 23) (by decide) (by decide)

theorem log2_fUnits_bounds {a : Word32} (hn : isNaN a = false) (hi : isInf a = false) (hz : isZero a = false) :
    149 ≤ (fUnits a * 2 ^ 149).log2 ∧ (fUnits a * 2 ^ 149).log2 < 23 + 254 + 149 := by
  have hpos : 0 < fUnits a := by
    have hne : fValue a ≠ 0 := fun h0 => by simp [(isZero_iff_fValue hn hi).mpr h0] at hz
    rw [← natAbs_fValue]
    omega
  have hlt : fUnits a < 2 ^ 23 * 2 ^ 254 := by
    rw [fUnits_eq, ← magUnits_inf, magUnits_lt_iff]
    exact finite_iff.mp ⟨hn, hi⟩
  generalize fUnits a = u at *
  have hu : u * 2 ^ 149 ≠ 0 := by omega
  refine ⟨(Nat.le_log2 hu).mpr (Nat.le_mul_of_pos_left _ hpos), (Nat.log2_lt hu).mpr ?_⟩
  calc u * 2 ^ 149 < 2 ^ 23 * 2 ^ 254 * 2 ^ 149 := Nat.mul_lt_mul_of_pos_right hlt (by positivity)
    _ = 2 ^ (23 + 254 + 149) := by simp only [Nat.pow_add]

/-- The square root of a positive finite value rounds, to a number of 31 bits, a value between the magnitudes of two
such numbers, and cannot overflow. -/
theorem fSqrt_spec (m : RoundingMode) {a : Word32} (hs : a.msb = false) (hn : isNaN a = false) (hi : isInf a = false)
    (hz : isZero a = false) :
    ∃ b r, b + 1 < 0x7F800000 ∧ Between (· ^ 2) (4 * (fUnits a * 2 ^ 149)) (magUnits b) (magUnits (b + 1)) r 4 ∧
      fSqrt m a = overflowPack m false (roundNat m false b r 4) := by
  obtain ⟨hlo, hhi⟩ := log2_fUnits_bounds hn hi hz
  obtain ⟨v, hv⟩ : ∃ v, fUnits a * 2 ^ 149 = v := ⟨_, rfl⟩
  obtain ⟨t, ht⟩ : ∃ t, v.log2 / 2 - 23 = t := ⟨_, rfl⟩
  rw [hv] at hlo hhi
  simp only [fSqrt, hs, hn, hi, hz, fSign, hv, ht, Bool.false_eq_true, if_false]
  obtain ⟨hq, hlt⟩ := sqrt_bounds (by omega) ht
  have hq' : (v / 4 ^ t).sqrt < 2 ^ 24 := Nat.sqrt_lt'.mpr (hlt.trans_eq (Nat.pow_mul 2 24 2))
  rw [isqrtBits_eq_sqrt (Nat.zero_le _) (by simpa using hlt)]
  refine ⟨t * 2 ^ 23 + (v / 4 ^ t).sqrt, sqrtRem v (v / 4 ^ t).sqrt t, by omega, ?_, ?_⟩
  · rw [Nat.add_assoc, magUnits_add hq'.le (.inr hq), magUnits_add hq' (.inr (by omega))]
    exact between_sqrt v t
  · rw [add_roundNat (by omega)]

/-- Settles O55: the root stands between the magnitudes of two neighbouring numbers. -/
theorem squareRootRounds : Obligations.SquareRootRounds := by
  intro m a q hs hn hi hz hqn hqi v A
  obtain ⟨b, r, hb, h, hv⟩ := fSqrt_spec m hs hn hi hz
  change v = _ at hv
  have hfin : roundNat m false b r 4 < 0x7F800000 := (roundNat_le ..).trans_lt hb
  have hmag : fMag v = roundNat m false b r 4 := by rw [hv, fMag_overflowPack_of_lt hfin]
  have hmsb : v.msb = false := by rw [hv, msb_overflowPack]
  obtain ⟨hvn, hvi⟩ := finite_iff.mpr (hmag.trans_lt hfin)
  have hdouble (u : Nat) : (2 * u) ^ 2 = 4 * u ^ 2 := by ring
  rw [fUnits_eq v, fUnits_eq q, hmag]
  refine ⟨hmsb, hvn, hvi, fun hm => ?toward, fun hm => ?away, fun hm => ?nearest⟩
  case toward =>
    have hm' : TowardZero m false := hm.imp_right fun hm => .inl ⟨hm, rfl⟩
    have hle {k : Nat} : magUnits k ^ 2 ≤ A ↔ k ≤ b := by
      rw [← h.le_iff strictMono_sq magUnits_strictMono, hdouble, Nat.mul_le_mul_left_iff (by decide)]
    rw [roundNat_of_towardZero hm', hle, hle, magUnits_le_iff]
    exact ⟨le_rfl, id⟩
  case away =>
    have hle {k : Nat} : A ≤ magUnits k ^ 2 ↔ roundNat m false b r 4 ≤ k := by
      rw [h.roundNat_le_iff strictMono_sq magUnits_strictMono (.inl ⟨hm, rfl⟩), hdouble,
        Nat.mul_le_mul_left_iff (by decide)]
    rw [hle, hle, magUnits_le_iff]
    exact ⟨le_rfl, id⟩
  case nearest =>
    rw [magUnits_lt_iff, magUnits_lt_iff, Nat.add_comm]
    exact ⟨h.half_le_of_lt strictMono_sq magUnits_strictMono hm, h.le_half_of_lt strictMono_sq magUnits_strictMono hm⟩

end Sys2Proof.Machine
end

section
/-! PROOFS. FloatToInteger: the conversions to an integer (43_float.md R283). -/
namespace Sys2Proof.Machine
variable {m : RoundingMode} {neg : Bool}

/-! ### Rounding to an integer, R269, R283 -/

section

variable {n d q : Nat} (hd : 0 < d) (hq : roundNat m neg (n / d) (n % d) d = q)
include hd hq

theorem roundNat_bounds_of_towardZero (hm : TowardZero m neg) : q * d ≤ n ∧ n < q * d + d := by
  have hlt := Nat.mod_lt n hd
  have hn := Nat.div_add_mod' n d
  rw [← hq, roundNat_of_towardZero hm]
  omega

theorem roundNat_bounds_of_awayFromZero (hm : AwayFromZero m neg) : n ≤ q * d ∧ q * d < n + d := by
  have hlt := Nat.mod_lt n hd
  have hn := Nat.div_add_mod' n d
  rw [← hq, roundNat_of_awayFromZero hm]
  split
  · omega
  · rw [Nat.add_one_mul]; omega

theorem roundNat_bounds_of_toNearest (hm : ToNearest m) :
    2 * (q * d) ≤ 2 * n + d ∧ 2 * n ≤ 2 * (q * d) + d ∧
      (2 * (q * d) = 2 * n + d ∨ 2 * n = 2 * (q * d) + d → (m = .rne → q % 2 = 0) ∧ (m = .rmm → n < q * d)) := by
  have hlt := Nat.mod_lt n hd
  have hn := Nat.div_add_mod' n d
  obtain ⟨e, hr, ht⟩ | ⟨e, hr, ht⟩ := roundNat_of_toNearest hm neg (n / d) (n % d) d
  · rw [← hq, e]
    refine ⟨by omega, by omega, fun h => ?_⟩
    obtain ⟨rfl, heven⟩ := ht (by omega)
    exact ⟨fun _ => heven, nofun⟩
  · have hmul : q * d = n / d * d + d := by rw [← hq, e, Nat.add_one_mul]
    rw [← hq, e] at hmul ⊢
    exact ⟨by omega, by omega, fun h => ⟨ht (by omega), fun _ => by omega⟩⟩

end

/-- Settles O50: the bounds on the rounded magnitude, with either sign. -/
theorem conversionSaturates : Obligations.ConversionSaturates := by
  intro m lo hi a _ n u
  have hinf (h : isInf a = true) : fToInt m lo hi a = if a.msb then lo else hi := by
    rw [fToInt, isNaN_of_isInf h, h]
    rfl
  refine ⟨fun h => if_pos h, hinf, fun hn hi' =>
    ⟨roundInt m a.msb (fUnits a) (2 ^ 149), by rw [fToInt, hn, hi']; rfl, ?_⟩⟩
  have hd : 0 < 2 ^ 149 := Nat.two_pow_pos 149
  obtain ⟨s, hs⟩ : ∃ s, a.msb = s := ⟨_, rfl⟩
  obtain ⟨q, hq⟩ : ∃ q, roundNat m s (fUnits a / 2 ^ 149) (fUnits a % 2 ^ 149) (2 ^ 149) = q := ⟨_, rfl⟩
  simp only [n, u, roundInt, fValue, fSign, hs, hq]
  generalize fUnits a = k at *
  cases m
  case rtz =>
    have := roundNat_bounds_of_towardZero hd hq (.inl rfl)
    cases s <;> simp only [Bool.false_eq_true, if_true, if_false] <;> omega
  case rdn =>
    cases s <;> simp only [Bool.false_eq_true, if_true, if_false]
    · have := roundNat_bounds_of_towardZero hd hq (.inr (.inl ⟨rfl, rfl⟩)); omega
    · have := roundNat_bounds_of_awayFromZero hd hq (.inr ⟨rfl, rfl⟩); omega
  case rup =>
    cases s <;> simp only [Bool.false_eq_true, if_true, if_false]
    · have := roundNat_bounds_of_awayFromZero hd hq (.inl ⟨rfl, rfl⟩); omega
    · have := roundNat_bounds_of_towardZero hd hq (.inr (.inr ⟨rfl, rfl⟩)); omega
  case rne =>
    obtain ⟨hlo, hhi, ht⟩ := roundNat_bounds_of_toNearest hd hq (.inl rfl)
    have heven := fun h => (ht h).1 rfl
    cases s <;> simp only [Bool.false_eq_true, if_true, if_false] <;> omega
  case rmm =>
    obtain ⟨hlo, hhi, ht⟩ := roundNat_bounds_of_toNearest hd hq (.inr rfl)
    have haway := fun h => (ht h).2 rfl
    cases s <;> simp only [Bool.false_eq_true, if_true, if_false] <;> omega

end Sys2Proof.Machine
end

section
/-! PROOFS. FloatArith: the statements on the functions of 43_float.md R252. -/
namespace Sys2Proof.Machine

variable {m : RoundingMode} {a b c : Word32}

/-! ### Values of the classes of R250 -/

theorem fValue_of_isZero (h : isZero a = true) : fValue a = 0 :=
  have ⟨hn, hi⟩ := finite_of_isZero h
  (isZero_iff_fValue hn hi).mp h

theorem isZero_of_fValue_ne (hn : isNaN a = false) (hi : isInf a = false) (h : fValue a ≠ 0) : isZero a = false := by
  rw [← Bool.not_eq_true, isZero_iff_fValue hn hi]
  exact h

theorem msb_ne_of_ne (h : a ≠ b) (hm : fMag a = fMag b) : a.msb ≠ b.msb := fun hs => h (eq_of_msb_of_fMag hs hm)

/-! ### The infinities, the zeros and the negation of R252 -/

theorem fInf_eq (neg : Bool) : fInf neg = if neg then 0xFF800000 else 0x7F800000 := by cases neg <;> rfl

theorem fZero_eq (neg : Bool) : fZero neg = if neg then 0x80000000 else 0x00000000 := by cases neg <;> rfl

theorem fZero_msb_of_isZero (h : isZero a = true) : fZero a.msb = a := by
  rw [fZero, ← isZero_iff.mp h, fPack_msb_fMag]

theorem msb_fNeg (a : Word32) : (fNeg a).msb = !a.msb := by
  rw [fNeg, BitVec.msb_xor]
  exact Bool.xor_true _

theorem fMag_fNeg (a : Word32) : fMag (fNeg a) = fMag a := by
  rw [fMag_eq_setWidth, fMag_eq_setWidth, fNeg, BitVec.setWidth_xor]
  exact congrArg BitVec.toNat BitVec.xor_zero

theorem fValue_fNeg (a : Word32) : fValue (fNeg a) = -fValue a := by
  have hu : fUnits (fNeg a) = fUnits a := by rw [fUnits_eq, fUnits_eq, fMag_fNeg]
  rw [fValue, fValue, fSign, fSign, msb_fNeg, hu]
  by_cases hs : a.msb = true <;> simp [hs]

/-! ### Sums -/

theorem fAdd_of_isNaN (h : isNaN a = true ∨ isNaN b = true) : fAdd m a b = canonicalNaN :=
  if_pos (by simpa using h)

theorem fAdd_of_finite (ha : isNaN a = false ∧ isInf a = false) (hb : isNaN b = false ∧ isInf b = false) :
    fAdd m a b = roundSum m (zeroSumSign m a.msb b.msb) (fValue a + fValue b) 1 := by
  simp [fAdd, fSign, ha, hb]

theorem fAdd_of_isInf_left (ha : isInf a = true) (hb : isNaN b = false) :
    fAdd m a b = if isInf b = true ∧ a.msb ≠ b.msb then canonicalNaN else a := by
  simp [fAdd, fSign, isNaN_of_isInf ha, ha, hb]

theorem fZero_zeroSumSign (sa sb : Bool) : fZero (zeroSumSign m sa sb) =
    if sa = sb then (if sa then 0x80000000 else 0x00000000) else if m = .rdn then 0x80000000 else 0x00000000 := by
  rw [zeroSumSign, fZero_eq]
  by_cases h : sa = sb <;> simp [h]

theorem fAdd_of_sum_zero (ha : isNaN a = false ∧ isInf a = false) (hb : isNaN b = false ∧ isInf b = false)
    (h : fValue a + fValue b = 0) : fAdd m a b = fZero (zeroSumSign m a.msb b.msb) := by
  rw [fAdd_of_finite ha hb, h]
  rfl

theorem fAdd_of_sum_ne_zero (ha : isNaN a = false ∧ isInf a = false) (hb : isNaN b = false ∧ isInf b = false)
    (h : fValue a + fValue b ≠ 0) :
    fAdd m a b = roundS m (fValue a + fValue b < 0) (fValue a + fValue b).natAbs 1 := by
  rw [fAdd_of_finite ha hb, roundSum, if_neg h]

theorem zeroSumSign_comm (sa sb : Bool) : zeroSumSign m sa sb = zeroSumSign m sb sa := by
  cases sa <;> cases sb <;> rfl

theorem fAdd_comm (m : RoundingMode) (a b : Word32) : fAdd m a b = fAdd m b a := by
  cases hna : isNaN a
  case true => rw [fAdd_of_isNaN (.inl hna), fAdd_of_isNaN (.inr hna)]
  cases hnb : isNaN b
  case true => rw [fAdd_of_isNaN (.inl hnb), fAdd_of_isNaN (.inr hnb)]
  cases hia : isInf a <;> cases hib : isInf b
  · rw [fAdd_of_finite ⟨hna, hia⟩ ⟨hnb, hib⟩, fAdd_of_finite ⟨hnb, hib⟩ ⟨hna, hia⟩, zeroSumSign_comm, Int.add_comm]
  · simp [fAdd, hna, hnb, hia, hib]
  · simp [fAdd, hna, hnb, hia, hib]
  · rw [fAdd_of_isInf_left hia hnb, fAdd_of_isInf_left hib hna]
    by_cases hs : a.msb = b.msb
    · simp [eq_of_msb_of_fMag hs ((isInf_iff.mp hia).trans (isInf_iff.mp hib).symm)]
    · simp [hia, hib, hs, Ne.symm hs]

/-! ### Products -/

theorem fMul_of_isNaN (h : isNaN a = true ∨ isNaN b = true) : fMul m a b = canonicalNaN :=
  if_pos (by simpa using h)

theorem fMul_of_isInf (ha : isInf a = true) (hb : isNaN b = false) :
    fMul m a b = if isZero b then canonicalNaN else fInf (a.msb ^^ b.msb) := by
  simp [fMul, fSign, isNaN_of_isInf ha, isZero_of_isInf ha, ha, hb]

theorem fMul_of_isZero (ha : isZero a = true) (hb : isNaN b = false ∧ isInf b = false) :
    fMul m a b = fZero (a.msb ^^ b.msb) := by
  simp [fMul, fSign, ha, hb, finite_of_isZero ha]

theorem fMul_comm (m : RoundingMode) (a b : Word32) : fMul m a b = fMul m b a := by
  simp only [fMul, Bool.or_comm (isNaN a), Bool.or_comm (isInf a), Bool.or_comm (isZero a), bne_comm (a := fSign a),
    Nat.mul_comm (fUnits a)]

theorem fMul_of_product_ne_zero (ha : isNaN a = false ∧ isInf a = false) (hb : isNaN b = false ∧ isInf b = false)
    (h : fValue a * fValue b ≠ 0) :
    fMul m a b = roundS m (fValue a * fValue b < 0) (fValue a * fValue b).natAbs (2 ^ 149) := by
  obtain ⟨hva, hvb⟩ := mul_ne_zero_iff.mp h
  rw [fValue_mul_neg h, Int.natAbs_mul, natAbs_fValue, natAbs_fValue]
  simp [fMul, ha, hb, isZero_of_fValue_ne ha.1 ha.2 hva, isZero_of_fValue_ne hb.1 hb.2 hvb]

/-! ### Quotients -/

theorem fDiv_of_isNaN (h : isNaN a = true ∨ isNaN b = true) : fDiv m a b = canonicalNaN :=
  if_pos (by simpa using h)

theorem fDiv_of_isInf_left (ha : isInf a = true) (hb : isNaN b = false) :
    fDiv m a b = if isInf b then canonicalNaN else fInf (a.msb ^^ b.msb) := by
  simp [fDiv, fSign, isNaN_of_isInf ha, ha, hb]

theorem fDiv_of_isInf_right (ha : isNaN a = false ∧ isInf a = false) (hb : isInf b = true) :
    fDiv m a b = fZero (a.msb ^^ b.msb) := by
  simp [fDiv, fSign, isNaN_of_isInf hb, ha, hb]

theorem fDiv_of_isZero_right (ha : isNaN a = false ∧ isInf a = false) (hb : isZero b = true) :
    fDiv m a b = if isZero a then canonicalNaN else fInf (a.msb ^^ b.msb) := by
  simp [fDiv, fSign, ha, hb, finite_of_isZero hb]

theorem fDiv_of_isZero_left (ha : isZero a = true) (hb : isNaN b = false ∧ isInf b = false) (hz : isZero b = false) :
    fDiv m a b = fZero (a.msb ^^ b.msb) := by
  simp [fDiv, fSign, ha, hb, hz, finite_of_isZero ha]

theorem fDiv_of_product_ne_zero (ha : isNaN a = false ∧ isInf a = false) (hb : isNaN b = false ∧ isInf b = false)
    (h : fValue a * fValue b ≠ 0) :
    fDiv m a b = roundS m (fValue a * fValue b < 0) ((fValue a).natAbs * 2 ^ 149) (fValue b).natAbs := by
  obtain ⟨hva, hvb⟩ := mul_ne_zero_iff.mp h
  rw [fValue_mul_neg h, natAbs_fValue, natAbs_fValue]
  simp [fDiv, ha, hb, isZero_of_fValue_ne ha.1 ha.2 hva, isZero_of_fValue_ne hb.1 hb.2 hvb]

/-! ### Fused sums -/

theorem fMulAdd_of_isNaN (h : isNaN a = true ∨ isNaN b = true ∨ isNaN c = true) : fMulAdd m a b c = canonicalNaN :=
  if_pos (by simpa [or_assoc] using h)

theorem fMulAdd_comm (m : RoundingMode) (a b c : Word32) : fMulAdd m a b c = fMulAdd m b a c := by
  simp only [fMulAdd, Bool.or_comm (isNaN a), Bool.or_comm (isInf a), Bool.or_comm (isZero a), bne_comm (a := fSign a),
    Int.mul_comm (fValue a)]

/-- An infinite factor and no NaN. -/
theorem fMulAdd_of_isInf_left (ha : isInf a = true) (hb : isNaN b = false) (hc : isNaN c = false) :
    fMulAdd m a b c = if isZero b = true ∨ isInf c = true ∧ c.msb ≠ (a.msb ^^ b.msb) then canonicalNaN
      else fInf (a.msb ^^ b.msb) := by
  simp [fMulAdd, fSign, isNaN_of_isInf ha, isZero_of_isInf ha, ha, hb, hc]

theorem fMulAdd_of_isInf_opposite (ha : isInf a = true) (hc : isInf c = true) (hs : c.msb ≠ (a.msb ^^ b.msb)) :
    fMulAdd m a b c = canonicalNaN := by
  cases hb : isNaN b
  case false => rw [fMulAdd_of_isInf_left ha hb (isNaN_of_isInf hc), if_pos (.inr ⟨hc, hs⟩)]
  case true => exact fMulAdd_of_isNaN (.inr (.inl hb))

theorem fMulAdd_of_isInf_right (ha : isNaN a = false ∧ isInf a = false) (hb : isNaN b = false ∧ isInf b = false)
    (hc : isInf c = true) : fMulAdd m a b c = c := by
  simp [fMulAdd, ha, hb, hc, isNaN_of_isInf hc]

theorem fMulAdd_of_finite (ha : isNaN a = false ∧ isInf a = false) (hb : isNaN b = false ∧ isInf b = false)
    (hc : isNaN c = false ∧ isInf c = false) : fMulAdd m a b c =
      roundSum m (zeroSumSign m (a.msb ^^ b.msb) c.msb) (fValue a * fValue b + fValue c * 2 ^ 149) (2 ^ 149) := by
  simp [fMulAdd, fSign, ha, hb, hc]

/-! ### The statements -/

/-- Settles O60, by the equations of the functions on finite operands. -/
theorem finiteResultsAreRounded : Obligations.FiniteResultsAreRounded := by
  intro m a b c n hfin sum product fused
  simp only [List.forall_mem_cons] at hfin
  obtain ⟨ha, hb, hc, -⟩ := hfin
  refine ⟨fAdd_of_sum_ne_zero ha hb, fMul_of_product_ne_zero ha hb, fDiv_of_product_ne_zero ha hb, fun h => ?fused, rfl,
    fun h => if_neg h⟩
  rw [fMulAdd_of_finite ha hb hc, roundSum, if_neg h]

/-- The sign and the magnitude of a value that is not 0 round back to it. -/
theorem roundS_fValue {d : Nat} (hd : 0 < d) (hn : isNaN c = false) (hi : isInf c = false) (hz : isZero c = false) :
    roundS m (fValue c < 0) (fUnits c * d) d = c := by
  have hne : fValue c ≠ 0 := fun h => by simp [(isZero_iff_fValue hn hi).mpr h] at hz
  have hu : fUnits c ≠ 0 := by rwa [← natAbs_fValue, Int.natAbs_ne_zero]
  have hs : decide (fValue c < 0) = c.msb := by simp [fValue_neg_iff, hu]
  rw [hs, roundS_exact m hd hn hi]

/-- Settles O54: the exact sum or product is the magnitude of the pattern, which rounds to itself. -/
theorem exactResultsAreExact : Obligations.ExactResultsAreExact := by
  refine ⟨fun m c d hd hn hi _ => roundS_exact m hd hn hi, fun m a b c hfin hz => ?_⟩
  simp only [List.forall_mem_cons] at hfin
  obtain ⟨ha, hb, hc, -⟩ := hfin
  have hne : fValue c ≠ 0 := fun h => by simp [(isZero_iff_fValue hc.1 hc.2).mpr h] at hz
  refine ⟨fun h => ?sum, fun h => ?product⟩
  case sum =>
    rw [fAdd_of_sum_ne_zero ha hb (h ▸ hne), h, natAbs_fValue, ← Nat.mul_one (fUnits c)]
    exact roundS_fValue Nat.one_pos hc.1 hc.2 hz
  case product =>
    have hu : (0 : Int) < 2 ^ 149 := by positivity
    have hneg : fValue c * 2 ^ 149 < 0 ↔ fValue c < 0 := by omega
    rw [fMul_of_product_ne_zero ha hb (h ▸ mul_ne_zero hne hu.ne'), h, Int.natAbs_mul, natAbs_fValue]
    simp only [hneg]
    exact roundS_fValue (by positivity) hc.1 hc.2 hz

/-- Settles O51, by the classes of the operands. -/
theorem floatSpecialCases : Obligations.FloatSpecialCases := by
  intro m a b c fin inf zero opposite cancelled
  have hinf (neg : Bool) : fInf neg = inf neg := fInf_eq neg
  have hzero (neg : Bool) : fZero neg = zero neg := fZero_eq neg
  refine ⟨fun h => ⟨fAdd_of_isNaN h, fMul_of_isNaN h, fDiv_of_isNaN h⟩, fMulAdd_of_isNaN, fun h => if_pos h, ?addInfs,
    ?mulInfZero, ?divZeros, ?divInfs, ?sqrtNeg, ?fusedInfs, ?addInf, ?addInfSelf, ?mulInf, ?divInf, ?divByInf, ?sqrtInf,
    ?fusedInf, fMulAdd_of_isInf_right, ?sqrtZero, ?divByZero, ?divZero, ?mulZero, ?addCancel, ?addNeg, ?addZeroSelf,
    ?addZeros, ?fusedCancel, fAdd_comm m a b, fMul_comm m a b, fMulAdd_comm m a b c⟩
  case addInfs =>
    intro ha hb hne
    rw [fAdd_of_isInf_left ha (isNaN_of_isInf hb),
      if_pos ⟨hb, msb_ne_of_ne hne ((isInf_iff.mp ha).trans (isInf_iff.mp hb).symm)⟩]
    rfl
  case mulInfZero =>
    intro ha hb
    have hbn := (finite_of_isZero hb).1
    have hmul : fMul m a b = canonicalNaN := by rw [fMul_of_isInf ha hbn, if_pos hb]
    have hfused : fMulAdd m a b c = canonicalNaN := by
      cases hc : isNaN c
      · rw [fMulAdd_of_isInf_left ha hbn hc, if_pos (.inl hb)]
      · exact fMulAdd_of_isNaN (.inr (.inr hc))
    exact ⟨hmul, fMul_comm m b a ▸ hmul, hfused, fMulAdd_comm m b a c ▸ hfused⟩
  case divZeros =>
    intro ha hb
    rw [fDiv_of_isZero_right (finite_of_isZero ha) hb, if_pos ha]
    rfl
  case divInfs =>
    intro ha hb
    rw [fDiv_of_isInf_left ha (isNaN_of_isInf hb), if_pos hb]
    rfl
  case sqrtNeg =>
    intro hs hz
    simp [fSqrt, fSign, hs, hz, canonicalNaN]
  case fusedInfs =>
    rintro (ha | hb) hc hs
    · exact fMulAdd_of_isInf_opposite ha hc hs
    · rw [fMulAdd_comm]
      exact fMulAdd_of_isInf_opposite hb hc (Bool.xor_comm _ _ ▸ hs)
  case addInf =>
    intro ha hb
    rw [fAdd_of_isInf_left ha hb.1, hb.2]
    rfl
  case addInfSelf =>
    intro ha
    rw [fAdd_of_isInf_left ha (isNaN_of_isInf ha), if_neg fun h => h.2 rfl]
  case mulInf =>
    intro ha hb hz
    rw [fMul_of_isInf ha hb, hz]
    exact hinf _
  case divInf =>
    intro ha hb
    rw [fDiv_of_isInf_left ha hb.1, hb.2]
    exact hinf _
  case divByInf =>
    intro ha hb
    rw [fDiv_of_isInf_right ha hb, hzero]
  case sqrtInf =>
    intro ha hs
    simp [fSqrt, fSign, hs, ha, isNaN_of_isInf ha]
  case fusedInf =>
    intro ha hb hz hc hs
    rw [fMulAdd_of_isInf_left ha hb hc, if_neg (by simpa [hz] using hs), hinf]
  case sqrtZero =>
    intro ha
    simp [fSqrt, ha, finite_of_isZero ha]
  case divByZero =>
    intro ha hz hb
    rw [fDiv_of_isZero_right ha hb, hz]
    exact hinf _
  case divZero =>
    intro ha hb hz
    rw [fDiv_of_isZero_left ha hb hz, hzero]
  case mulZero =>
    intro ha hb
    rw [fMul_of_isZero ha hb, hzero]
  case addCancel =>
    intro ha hb h
    rw [fAdd_of_sum_zero ha hb h, fZero_zeroSumSign]
  case addNeg =>
    intro ha hz
    have hb : isNaN (fNeg a) = false ∧ isInf (fNeg a) = false := by rwa [finite_iff, fMag_fNeg, ← finite_iff]
    have h := fAdd_of_sum_zero (m := m) ha hb (by rw [fValue_fNeg, Int.add_right_neg])
    rw [fZero_zeroSumSign, msb_fNeg, if_neg (by simp)] at h
    exact h
  case addZeroSelf =>
    intro ha
    have hf := finite_of_isZero ha
    rw [fAdd_of_sum_zero hf hf (by rw [fValue_of_isZero ha]; rfl), zeroSumSign, if_pos rfl, fZero_msb_of_isZero ha]
  case addZeros =>
    intro ha hb hne
    have hs : a.msb ≠ b.msb := msb_ne_of_ne hne ((isZero_iff.mp ha).trans (isZero_iff.mp hb).symm)
    rw [fAdd_of_sum_zero (finite_of_isZero ha) (finite_of_isZero hb)
      (by rw [fValue_of_isZero ha, fValue_of_isZero hb]; rfl), fZero_zeroSumSign, if_neg hs]
  case fusedCancel =>
    intro ha hb hc h
    rw [fMulAdd_of_finite ha hb hc, h, roundSum, if_pos rfl, fZero_zeroSumSign]
    exact ite_congr rfl (fun hs => congrArg zero hs) fun _ => rfl

end Sys2Proof.Machine
end

section
/-! PROOFS. Float: the statements on the instructions of 43_float.md. -/
namespace Sys2Proof.Machine

variable {s : State} {rd rs1 rs2 rs3 : Reg} {m : RoundingMode} {a b : Word32}

/-! ### A rounding mode that resolves, R251, and the moves, R253, R271 -/

theorem withRm_eq {rm : BitVec 3} {k : RoundingMode → Result} (hm : resolveRm s.frmDyn rm = some m) :
    withRm s rm k = k m := by
  rw [withRm, hm]

theorem execFlw_next {t : State} {imm : BitVec 12} :
    execFlw rd rs1 imm s = .next t ↔
      s.refuses (.readX rs1) = false ∧ s.refuses (.readMem 4 (effAddr (s.getX rs1) (immI imm))) = false ∧
        s.refuses (.writeF rd) = false ∧ s.refuses .writePc = false ∧
        (s.setF rd (nanBox (low32 (loadLE s.mem (effAddr (s.getX rs1) (immI imm)) 4)))).withPc (s.pc + 4) = t := by
  simp [execFlw]

theorem execFmvXW_next {t : State} :
    execFmvXW rd rs1 s = .next t ↔
      s.refuses (.readF rs1) = false ∧ ServesX s rd ∧ s.refuses .writePc = false ∧
        (s.setX rd (sext64 (nanUnBox (s.getF rs1)))).withPc (s.pc + 4) = t := by
  simp [execFmvXW]

/-! ### Sign injection, R264 to R266 -/

/-- What sign injection makes of a sign and the low 31 bits of `a`. -/
theorem ofBool_append_eq {sg : Bool} {v : Word32} (hs : v.msb = sg) (hm : v.setWidth 31 = a.setWidth 31) :
    BitVec.ofBool sg ++ a.extractLsb 30 0 = v := by
  apply eq_of_msb_of_fMag
  · rw [hs, BitVec.msb_append]
    simp
  · rw [fMag_eq_setWidth, fMag_eq_setWidth, hm, BitVec.setWidth_append]
    simp [BitVec.extractLsb, BitVec.extractLsb']

theorem msb_and_lowMask (a : Word32) : (a &&& 0x7FFFFFFF).msb = false := by
  rw [BitVec.msb_and]
  exact Bool.and_false _

theorem setWidth_and_lowMask (a : Word32) : (a &&& 0x7FFFFFFF).setWidth 31 = a.setWidth 31 := by
  rw [BitVec.setWidth_and]
  exact BitVec.and_allOnes

theorem msb_and_signMask (b : Word32) : (b &&& 0x80000000).msb = b.msb := by
  rw [BitVec.msb_and]
  exact Bool.and_true _

theorem setWidth_and_signMask (b : Word32) : (b &&& 0x80000000).setWidth 31 = 0#31 := by
  rw [BitVec.setWidth_and]
  exact BitVec.and_zero

/-- The low 31 bits of `a` under the sign of `b`. -/
theorem ofBool_msb_append_eq (a b : Word32) :
    BitVec.ofBool b.msb ++ a.extractLsb 30 0 = a &&& 0x7FFFFFFF ||| b &&& 0x80000000 := by
  apply ofBool_append_eq
  · rw [BitVec.msb_or, msb_and_lowMask, msb_and_signMask, Bool.false_or]
  · rw [BitVec.setWidth_or, setWidth_and_lowMask, setWidth_and_signMask, BitVec.or_zero]

theorem fSgnj_eq (a b : Word32) : fSgnj a b = a &&& 0x7FFFFFFF ||| b &&& 0x80000000 := ofBool_msb_append_eq a b

theorem fSgnjn_eq (a b : Word32) : fSgnjn a b = a &&& 0x7FFFFFFF ||| ~~~b &&& 0x80000000 := by
  rw [← ofBool_msb_append_eq, BitVec.msb_not]
  simp [fSgnjn]

theorem fSgnjx_eq (a b : Word32) : fSgnjx a b = a ^^^ b &&& 0x80000000 := by
  apply ofBool_append_eq
  · rw [BitVec.msb_xor, msb_and_signMask]
  · rw [BitVec.setWidth_xor, setWidth_and_signMask, BitVec.xor_zero]

/-! ### Minimum and maximum, R267, R268 -/

/-- Two zeros are of opposite signs exactly when they differ. -/
theorem oppositeZeros_iff (a b : Word32) : (isZero a && isZero b && fSign a != fSign b) = true ↔
    isZero a = true ∧ isZero b = true ∧ a ≠ b := by
  rw [Bool.and_eq_true, Bool.and_eq_true, and_assoc, bne_iff_ne]
  refine and_congr_right fun ha => and_congr_right fun hb => not_congr ⟨fun hs => ?_, congrArg fSign⟩
  exact eq_of_msb_of_fMag hs ((isZero_iff.mp ha).trans (isZero_iff.mp hb).symm)

theorem fMin_eq (a b : Word32) : fMin a b =
    if isNaN a ∧ isNaN b then 0x7FC00000 else if isNaN a then b else if isNaN b then a
    else if isZero a ∧ isZero b ∧ a ≠ b then 0x80000000 else if fValue a < fValue b then a else b := by
  simp only [fMin, oppositeZeros_iff]
  simp only [Bool.and_eq_true]
  rfl

theorem fMax_eq (a b : Word32) : fMax a b =
    if isNaN a ∧ isNaN b then 0x7FC00000 else if isNaN a then b else if isNaN b then a
    else if isZero a ∧ isZero b ∧ a ≠ b then 0x00000000 else if fValue b < fValue a then a else b := by
  simp only [fMax, oppositeZeros_iff]
  simp only [Bool.and_eq_true]
  rfl

/-! ### Comparison and classification, R272 to R275 -/

/-- A comparison of numbers holds of no NaN. -/
theorem boolWord_ordered (a b : Word32) (p : Prop) [Decidable p] :
    boolWord (!(isNaN a || isNaN b) && decide p) = if (!isNaN a && !isNaN b) = true ∧ p then 1 else 0 := by
  simp [boolWord]

theorem eq_fPack_iff {neg : Bool} {k : Nat} (hk : k < 2 ^ 31) (a : Word32) :
    a = fPack neg k ↔ a.msb = neg ∧ fMag a = k :=
  ⟨fun h => h ▸ ⟨msb_fPack .., fMag_fPack _ hk⟩,
    fun ⟨hs, hm⟩ => eq_of_msb_of_fMag (hs.trans (msb_fPack ..).symm) (hm.trans (fMag_fPack _ hk).symm)⟩

theorem eq_fInf_iff (neg : Bool) (a : Word32) : a = fInf neg ↔ a.msb = neg ∧ isInf a = true := by
  rw [isInf_iff]
  exact eq_fPack_iff (by decide) a

theorem eq_fZero_iff (neg : Bool) (a : Word32) : a = fZero neg ↔ a.msb = neg ∧ isZero a = true := by
  rw [isZero_iff]
  exact eq_fPack_iff (by decide) a

theorem fClass_eq (a : Word32) : fClass a =
    if a = 0xFF800000 then 1 else if a = 0x80000000 then 8 else if a = 0 then 16 else if a = 0x7F800000 then 128
    else if isNaN a then (if a.getLsbD 22 then 512 else 256)
    else if isSubnormal a then (if a.msb then 4 else 32) else if a.msb then 2 else 64 := by
  have hni : a = 0xFF800000 ↔ a.msb = true ∧ isInf a = true := eq_fInf_iff true a
  have hpi : a = 0x7F800000 ↔ a.msb = false ∧ isInf a = true := eq_fInf_iff false a
  have hnz : a = 0x80000000 ↔ a.msb = true ∧ isZero a = true := eq_fZero_iff true a
  have hpz : a = 0 ↔ a.msb = false ∧ isZero a = true := eq_fZero_iff false a
  obtain ⟨neg, hs⟩ : ∃ neg, a.msb = neg := ⟨_, rfl⟩
  obtain ⟨quiet, hq⟩ : ∃ quiet, a.getLsbD 22 = quiet := ⟨_, rfl⟩
  simp only [hni, hpi, hnz, hpz, fClass, isSNaN, fSign, hs, hq]
  by_cases hi : isInf a = true
  · cases neg <;> simp [hi, isNaN_of_isInf hi, isZero_of_isInf hi]
  by_cases hz : isZero a = true
  · cases neg <;> simp [hz, finite_of_isZero hz]
  by_cases hn : isNaN a = true
  · cases quiet <;> simp [hi, hz, hn]
  · simp [hi, hz, hn]

/-! ### The statements -/

/-- Settles O45, by the table and its one code that refers to `FRM_DYN`. -/
theorem roundingModeCodes : Obligations.RoundingModeCodes := by
  intro frm
  refine ⟨rfl, rfl, rfl, rfl, rfl, rfl, rfl, ?_⟩
  by_cases h : frm = 0b111
  · subst h
    rfl
  · rw [if_neg h, resolveRm, if_pos rfl, resolveRm, if_neg h]

/-- Settles O46: the word loaded is the four bytes, and no move looks at the bits. -/
theorem floatMoveResults : Obligations.FloatMoveResults := by
  intro s rd rs1 imm hpc a b
  refine ⟨fun hs => ?flw, fun hs => ?fmvWX, fun hr hd => ?fmvXW⟩
  case flw =>
    obtain ⟨h1, hm, hd, -⟩ : _ ∧ _ ∧ _ := by simpa only [Serves, List.forall_mem_cons] using hs
    have ha : effAddr (s.getX rs1) (immI imm) = a := effAddr_immI _ _
    have hv : low32 (loadLE s.mem a 4) = b 3 ++ b 2 ++ b 1 ++ b 0 := low32_loadLE_four s a
    exact execFlw_next.mpr ⟨h1, ha ▸ hm, hd, hpc, by rw [ha, hv]; rfl⟩
  case fmvWX => exact fpuOfX_next.mpr ⟨hs _ (by simp), hs _ (by simp), hpc, rfl⟩
  case fmvXW => exact execFmvXW_next.mpr ⟨hr, hd, hpc, rfl⟩

/-- Settles O47, by the shapes of one, two and three float sources. -/
theorem floatArithmeticResults : Obligations.FloatArithmeticResults := by
  intro s rd rs1 rs2 rs3 rm m hs hm a b c neg puts
  obtain ⟨h1, h2, h3, hd, hpc, -⟩ : _ ∧ _ ∧ _ ∧ _ ∧ _ := by simpa only [Serves, List.forall_mem_cons] using hs
  have three (g : Word32 → Word32 → Word32 → Word32) : fpu3 rd rs1 rs2 rs3 g s = puts (g a b c) :=
    fpu3_next.mpr ⟨h1, h2, h3, hd, hpc, rfl⟩
  have two (g : Word32 → Word32 → Word32) : fpu2 rd rs1 rs2 g s = puts (g a b) :=
    fpu2_next.mpr ⟨h1, h2, hd, hpc, rfl⟩
  have one (g : Word32 → Word32) : fpu1 rd rs1 g s = puts (g a) := fpu1_next.mpr ⟨h1, hd, hpc, rfl⟩
  refine ⟨?_, ?_, ?_, ?_, ?_, ?_, ?_, ?_, ?_⟩ <;> refine (withRm_eq hm).trans ?_
  iterate 4 · exact three _
  iterate 4 · exact two _
  · exact one _

/-- Settles O48. -/
theorem floatSelectResults : Obligations.FloatSelectResults := by
  intro s rd rs1 rs2 hs a b ordered putsF putsX
  obtain ⟨h1, h2, hpc, -⟩ : _ ∧ _ ∧ _ := by simpa only [Serves, List.forall_mem_cons] using hs
  refine ⟨fun hd => ?_, fun hd => ?_⟩
  · have two {g : Word32 → Word32 → Word32} {v : Word32} (hv : g a b = v) : fpu2 rd rs1 rs2 g s = putsF v :=
      fpu2_next.mpr ⟨h1, h2, hd, hpc, by rw [← hv]; rfl⟩
    exact ⟨two (fSgnj_eq a b), two (fSgnjn_eq a b), two (fSgnjx_eq a b), two (fMin_eq a b), two (fMax_eq a b)⟩
  · have two {g : Word32 → Word32 → Word} {v : Word} (hv : g a b = v) : fpuX2 rd rs1 rs2 g s = putsX v :=
      fpuX2_next.mpr ⟨h1, h2, hd, hpc, by rw [← hv]⟩
    have feq := boolWord_ordered a b (fValue a = fValue b)
    have flt := boolWord_ordered a b (fValue a < fValue b)
    have fle := boolWord_ordered a b (fValue a ≤ fValue b)
    exact ⟨two (g := fun a b => boolWord (fEq a b)) feq, two (g := fun a b => boolWord (fLt a b)) flt,
      two (g := fun a b => boolWord (fLe a b)) fle, fpuX1_next.mpr ⟨h1, hd, hpc, by rw [fClass_eq]⟩⟩

/-- Settles O49, by the shapes of a float source and an integer result, and the reverse. -/
theorem floatConversionResults : Obligations.FloatConversionResults := by
  intro s rd rs1 rm m hpc hm a x w putsF putsX
  refine ⟨fun hr hd => ?_, fun hs => ?_⟩
  · have toX (g : Word32 → Word) : fpuX1 rd rs1 g s = putsX (g a) := fpuX1_next.mpr ⟨hr, hd, hpc, rfl⟩
    refine ⟨?_, ?_, ?_, ?_⟩ <;> exact (withRm_eq hm).trans (toX _)
  · have ofX (g : Word → Word32) : fpuOfX rd rs1 g s = putsF (g x) :=
      fpuOfX_next.mpr ⟨hs _ (by simp), hs _ (by simp), hpc, rfl⟩
    refine ⟨?_, ?_, ?_, ?_⟩ <;> exact (withRm_eq hm).trans (ofX _)

end Sys2Proof.Machine
end

section
/-! PROOFS. Immediates: the stored immediates of compressed parcels (44_compressed.md R305 to R337): as numbers, and as
those of the equivalent full-width instructions (R302). -/
namespace Sys2Proof

/-! ### A field with constant 0 bits below it, as a number -/

theorem toNat_append_zero {n m : Nat} (x : BitVec n) : (x ++ 0#m).toNat = 2 ^ m * x.toNat := by
  rw [BitVec.toNat_append, BitVec.toNat_zero, Nat.or_zero, Nat.shiftLeft_eq, Nat.mul_comm]

/-- A scaled signed immediate, widened (R314, R315, R325 to R327). -/
theorem sext64_signExtend_append_zero {n m : Nat} (x : BitVec n) (h : n + m ≤ 32 := by decide) :
    sext64 ((x ++ 0#m).signExtend 32) = BitVec.ofInt 64 (2 ^ m * x.toInt) := by
  rw [sext64_signExtend _ h, ← BitVec.toInt_append_zero]
  rfl

/-- A scaled unsigned immediate is never negative (R305 to R309, R329, R330, R336, R337). -/
theorem sext64_setWidth_append_zero {n m : Nat} (x : BitVec n) (h : n + m < 32 := by decide) :
    sext64 ((x ++ 0#m).setWidth 32) = BitVec.ofNat 64 (2 ^ m * x.toNat) := by
  have hmsb : ((x ++ 0#m).setWidth 32).msb = false := by
    rw [BitVec.msb_setWidth, BitVec.getLsbD_of_ge _ _ (by omega), Bool.and_false]
  rw [sext64, BitVec.signExtend_eq_setWidth_of_msb_false hmsb, BitVec.setWidth_setWidth (by omega),
    ← toNat_append_zero, BitVec.ofNat_toNat]

/-! ### The immediate of the equivalent full-width instruction, R302 -/

theorem immI_signExtend {n : Nat} (x : BitVec n) (h : n ≤ 12 := by decide) :
    immI (x.signExtend 12) = x.signExtend 32 :=
  congrArg (BitVec.ofInt 32) (BitVec.toInt_signExtend_of_le h)

/-- Where the constant 0 bits stand below the sign extension or under it makes no difference. -/
theorem signExtend_append_zero {n m k w : Nat} (x : BitVec n) (h : n ≤ m := by decide) :
    (x.signExtend m ++ 0#k).signExtend w = (x ++ 0#k).signExtend w :=
  congrArg (BitVec.ofInt w) <| by
    rw [BitVec.toInt_append_zero, BitVec.toInt_append_zero, BitVec.toInt_signExtend_of_le h]

theorem immU_signExtend (x : BitVec 6) : immU (x.signExtend 20) = cImmLui x :=
  (BitVec.signExtend_eq _).symm.trans (signExtend_append_zero x)

theorem immB_signExtend (x : BitVec 8) : immB (x.signExtend 12) = cOffBranch x := signExtend_append_zero x

theorem immJ_signExtend (x : BitVec 11) : immJ (x.signExtend 20) = cOffJump x := signExtend_append_zero x

end Sys2Proof
end

section
/-! PROOFS. Narrowing: the shapes of Machine/Shapes.lean in width 2 against width 4 (44_compressed.md R302). -/
namespace Sys2Proof.Machine

/-- The result with `g` done to the state of an OK end. -/
def onNext (g : State → State) : Result → Result
  | .next t => .next (g t)
  | o => o

variable {s : State} {g : State → State} {rd rs1 rs2 r : Reg} {n : Nat}

/-! ### The operations: the same accesses are asked, so the same one is refused -/

theorem readX_onNext {k k' : Word → Result} (h : k (s.getX r) = onNext g (k' (s.getX r))) :
    readX s r k = onNext g (readX s r k') := by
  rw [readX, readX]
  split
  · rfl
  · exact h

theorem readPc_onNext {k k' : Word → Result} (h : k s.pc = onNext g (k' s.pc)) :
    readPc s k = onNext g (readPc s k') := by
  rw [readPc, readPc]
  split
  · rfl
  · exact h

theorem writeX_onNext {v v' : Word} {k k' : State → Result} (h : k (s.setX r v) = onNext g (k' (s.setX r v'))) :
    writeX s r v k = onNext g (writeX s r v' k') := by
  rw [writeX, writeX]
  split
  · rfl
  · exact h

theorem memRead_onNext {a : Word} {k k' : Word → Result}
    (h : k (loadLE s.mem a n) = onNext g (k' (loadLE s.mem a n))) : memRead s a n k = onNext g (memRead s a n k') := by
  rw [memRead, memRead]
  split
  · rfl
  · exact h

theorem memWrite_onNext {a v : Word} {k k' : State → Result}
    (h : k (s.withMem (storeLE s.mem a v n)) = onNext g (k' (s.withMem (storeLE s.mem a v n)))) :
    memWrite s a n v k = onNext g (memWrite s a n v k') := by
  rw [memWrite, memWrite]
  split
  · rfl
  · exact h

theorem setPc_onNext {s' : State} {v v' : Word} (h : s.withPc v = g (s'.withPc v'))
    (hs : s.refuses .writePc = s'.refuses .writePc := by simp) : setPc s v = onNext g (setPc s' v') := by
  rw [setPc, setPc, hs]
  split
  · rfl
  · exact congrArg Host.Outcome.next h

/-- Both advance pc by their width, from the same pc `p`. -/
theorem advance_onNext {p : Word} (h : s.pc = p) :
    advance s 2 = onNext (·.withPc (p + 2)) (advance s 4) := by
  subst h
  exact setPc_onNext rfl

/-! ### The shapes that advance pc -/

theorem aluX0_onNext {v v' : Word} (hv : v = v') :
    aluX0 2 rd v s = onNext (·.withPc (s.pc + 2)) (aluX0 4 rd v' s) := by
  subst hv
  exact writeX_onNext <| advance_onNext (s.setX_pc ..)

theorem aluX1_onNext {f f' : Word → Word} (hf : ∀ a, f a = f' a) :
    aluX1 2 rd rs1 f s = onNext (·.withPc (s.pc + 2)) (aluX1 4 rd rs1 f' s) := by
  obtain rfl : f = f' := funext hf
  exact readX_onNext <| writeX_onNext <| advance_onNext (s.setX_pc ..)

theorem aluX2_onNext {f : Word → Word → Word} :
    aluX2 2 rd rs1 rs2 f s = onNext (·.withPc (s.pc + 2)) (aluX2 4 rd rs1 rs2 f s) :=
  readX_onNext <| readX_onNext <| writeX_onNext <| advance_onNext (s.setX_pc ..)

theorem loadX_onNext {imm imm' : Word32} {ext : Word → Word} (hi : imm = imm') :
    loadX 2 rd rs1 imm n ext s = onNext (·.withPc (s.pc + 2)) (loadX 4 rd rs1 imm' n ext s) := by
  subst hi
  exact readX_onNext <| memRead_onNext <| writeX_onNext <| advance_onNext (s.setX_pc ..)

theorem storeX_onNext {imm imm' : Word32} (hi : imm = imm') :
    storeX 2 rs1 rs2 imm n s = onNext (·.withPc (s.pc + 2)) (storeX 4 rs1 rs2 imm' n s) := by
  subst hi
  exact readX_onNext <| readX_onNext <| memWrite_onNext <| advance_onNext rfl

/-! ### Control transfer -/

theorem branch_onNext {off off' : Word} {c : Word → Word → Bool} (ho : off = off') :
    branch 2 rs1 rs2 off c s = onNext (fun t => bif c (s.getX rs1) (s.getX rs2) then t else t.withPc (s.pc + 2))
      (branch 4 rs1 rs2 off' c s) := by
  subst ho
  refine readX_onNext <| readX_onNext <| readPc_onNext <| setPc_onNext ?_
  cases c (s.getX rs1) (s.getX rs2) <;> rfl

theorem State.withPc_setX_zero (s : State) (v v' t : Word) : (s.setX 0 v).withPc t = (s.setX 0 v').withPc t :=
  congrArg (·.withPc t) ((s.setX_zero v).trans (s.setX_zero v').symm)

/-- A jump that links to no register does not depend on the width (R325). -/
theorem jump_zero_onNext {off off' : Word} (ho : off = off') : jump 2 0 off s = onNext id (jump 4 0 off' s) := by
  subst ho
  exact readPc_onNext <| writeX_onNext <| setPc_onNext (s.withPc_setX_zero ..)

theorem jumpReg_zero_onNext {off : Word} : jumpReg 2 0 rs1 off s = onNext id (jumpReg 4 0 rs1 off s) :=
  readPc_onNext <| readX_onNext <| writeX_onNext <| setPc_onNext (s.withPc_setX_zero ..)

/-- The later of two writes of one register stands, wherever pc is set. -/
theorem State.setX_withPc_setX (s : State) (r : Reg) (v v' t : Word) :
    ((s.setX r v).withPc t).setX r v' = (s.setX r v').withPc t := by
  by_cases h : r = 0#5 <;> simp [State.setX, State.withPc, h]

/-- The link is the one place where the width is in a register (R334). -/
theorem jumpReg_onNext {off : Word} :
    jumpReg 2 rd rs1 off s = onNext (·.setX rd (s.pc + 2)) (jumpReg 4 rd rs1 off s) :=
  readPc_onNext <| readX_onNext <| writeX_onNext <| setPc_onNext (s.setX_withPc_setX ..).symm

end Sys2Proof.Machine
end

section
/-! PROOFS. Expansion: a compressed instruction and its equivalent full-width instruction (44_compressed.md R302). -/
namespace Sys2Proof

open Machine

variable {i j j' : Instr}

/-! ### The equivalent instruction of a form that can be a sentinel, R338 -/

theorem not_and_eq_of_ite_none {c : Prop} [Decidable c] (h : (if c then none else some j') = some j) :
    ¬c ∧ j' = j := by
  obtain ⟨hc, hj⟩ := Option.ite_none_left_eq_some.mp h
  exact ⟨hc, Option.some.inj hj⟩

/-- On the condition `c` the form is the sentinel `x` and has no equivalent; else it is `y`, its equivalent's. -/
theorem ite_eq_of_ite_none {α : Type} {c : Prop} [Decidable c] {x y : α} {f : Instr → α}
    (h : (if c then none else some j') = some j) (hy : y = f j') : (if c then x else y) = f j := by
  obtain ⟨hc, rfl⟩ := not_and_eq_of_ite_none h
  rw [if_neg hc, hy]

/-- C.LUI tests for RESERVED first and for HINT next (R315); its equivalent asks that neither holds. -/
theorem ite_ite_eq_ite_or {α : Type} {p q : Prop} [Decidable p] [Decidable q] (x y z : α) :
    (if p then x else if q then y else z) = if p ∨ q then (if p then x else y) else z := by
  by_cases hp : p <;> by_cases hq : q <;> simp [hp, hq]

/-! ### The decoded variant -/

theorem index_of_fullWidth (h : i.fullWidth = some j) : 115 ≤ i.index ∧ j.index < 115 := by
  cases i with
  | cLw | cLd | cSw | cSd | cAndi | cSub | cXor | cOr | cAnd | cSubw | cAddw | cJ | cBeqz | cBnez | cJalr | cSwsp
  | cSdsp => cases h; simp [Instr.index]
  | cAddi4spn | cAddi | cAddiw | cLi | cAddi16sp | cLui | cSrli | cSrai | cSlli | cLwsp | cLdsp | cJr | cMv | cAdd =>
    obtain ⟨-, rfl⟩ := not_and_eq_of_ite_none h
    simp [Instr.index]
  | _ => cases h

/-- The overlapping entries of R106 are all compressed ones. -/
theorem wellFormed_of_index_lt (h : i.index < 115) : WellFormed i = true := by
  cases i with
  | cAddi | cLui | cMv | cJalr | cAdd => simp [Instr.index] at h
  | _ => rfl

/-- The two have one variant with the same fields, whatever their words. -/
theorem variant_of_fullWidth (h : i.fullWidth = some j) (raw raw' : Word32) : i.variant raw = j.variant raw' := by
  cases i with
  | cSub | cXor | cOr | cAnd | cSubw | cAddw | cJalr => cases h; rfl
  | cLw | cLd | cSw | cSd | cSwsp | cSdsp => cases h; exact congrArg _ (immI_setWidth (by decide) _).symm
  | cAndi => cases h; exact congrArg _ (immI_signExtend _).symm
  | cJ => cases h; exact congrArg _ (immJ_signExtend _).symm
  | cBeqz | cBnez => cases h; exact congrArg (RISCVInst.b _ _ · _) (immB_signExtend _).symm
  | cAddi4spn | cLwsp | cLdsp =>
    refine ite_eq_of_ite_none h ?_
    exact congrArg _ (immI_setWidth (by decide) _).symm
  | cAddi | cAddiw | cLi | cAddi16sp =>
    refine ite_eq_of_ite_none h ?_
    exact congrArg _ (immI_signExtend _).symm
  | cLui =>
    refine (ite_ite_eq_ite_or ..).trans (ite_eq_of_ite_none h ?_)
    exact congrArg _ (immU_signExtend _).symm
  | cSrli | cSrai | cSlli | cJr | cMv | cAdd => exact ite_eq_of_ite_none h rfl
  | _ => cases h

/-! ### The block's output for an instruction's own word, R105 -/

theorem findIdx?_encode (hi : WellFormed i = true) : patternTable.findIdx? (·.hits (encode i)) = some i.index := by
  obtain ⟨e, he, hbuild⟩ := firstMatch_encode hi
  obtain ⟨hhit, k, hk, rfl, hfirst⟩ := List.find?_eq_some_iff_getElem.mp he
  have hindex : i.index = k := hbuild ▸ index_build (List.getElem?_eq_getElem hk) (encode i)
  rw [hindex]
  exact List.findIdx?_eq_some_iff_getElem.mpr ⟨hk, hhit, fun j hj => by simpa using hfirst j hj⟩

theorem decodeBlock_encode (hi : WellFormed i = true) :
    decodeBlock (encode i) =
      { inst := i.variant (encode i), raw := encode i, isRvc := isRvc (encode i), pattern := some i.index } := by
  simp only [decodeBlock, decode_encode hi, scanWord_encode, findIdx?_encode hi]

/-! ### The execution -/

/-- Of the two, the full-width instruction says whether a transfer is taken. -/
theorem takes_of_fullWidth (h : i.fullWidth = some j) (s : State) : i.takes s = j.takesF s := by
  rw [Instr.takes, Instr.core, h, Option.getD_some]

/-- What width 2 makes of the state in which the equivalent ends: the link of C.JALR, and the next pc when no transfer
is taken. -/
def Instr.narrowed (i : Instr) (s : State) (taken : Bool) (t : State) : State :=
  match i with
  | .cJ .. | .cJr .. => t
  | .cJalr .. => t.setX 1 (s.pc + 2)
  | _ => bif taken then t else t.withPc (s.pc + 2)

/-- A form that can be a sentinel executes, when it is none, as its equivalent does. -/
theorem exec_eq_of_ite_none {s : State} {c : Prop} [Decidable c] {x y : Result}
    (h : (if c then none else some j') = some j) (hy : y = onNext (i.narrowed s (j'.takesF s)) (exec j' s)) :
    (if c then x else y) = onNext (i.narrowed s (j.takesF s)) (exec j s) :=
  ite_eq_of_ite_none (f := fun j => onNext (i.narrowed s (j.takesF s)) (exec j s)) h hy

/-- A compressed instruction ends as its equivalent does, but for the width. -/
theorem exec_of_fullWidth (h : i.fullWidth = some j) (s : State) :
    exec i s = onNext (i.narrowed s (j.takesF s)) (exec j s) := by
  cases i with
  | cLw | cLd => cases h; unfold exec; exact loadX_onNext (immI_setWidth (by decide) _).symm
  | cSw | cSd | cSwsp | cSdsp => cases h; unfold exec; exact storeX_onNext (immI_setWidth (by decide) _).symm
  | cAndi => cases h; unfold exec; exact aluX1_onNext fun a => congrArg (a &&& sext64 ·) (immI_signExtend _).symm
  | cSub | cXor | cOr | cAnd | cSubw | cAddw => cases h; unfold exec; exact aluX2_onNext
  | cJ => cases h; unfold exec; exact jump_zero_onNext (congrArg sext64 (immJ_signExtend _).symm)
  | cBeqz | cBnez => cases h; unfold exec; exact branch_onNext (congrArg sext64 (immB_signExtend _).symm)
  | cJalr => cases h; unfold exec; exact jumpReg_onNext
  | cAddi4spn =>
    refine exec_eq_of_ite_none h ?_
    unfold exec
    exact aluX1_onNext fun a => congrArg (a + sext64 ·) (immI_setWidth (by decide) _).symm
  | cLwsp | cLdsp =>
    refine exec_eq_of_ite_none h ?_
    unfold exec
    exact loadX_onNext (immI_setWidth (by decide) _).symm
  | cAddi | cLi | cAddi16sp =>
    refine exec_eq_of_ite_none h ?_
    unfold exec
    exact aluX1_onNext fun a => congrArg (a + sext64 ·) (immI_signExtend _).symm
  | cAddiw =>
    refine exec_eq_of_ite_none h ?_
    unfold exec
    exact aluX1_onNext fun a => congrArg (sextW <| a + sext64 ·) (immI_signExtend _).symm
  | cLui =>
    refine (ite_ite_eq_ite_or ..).trans (exec_eq_of_ite_none h ?_)
    unfold exec
    exact aluX0_onNext (congrArg sext64 (immU_signExtend _).symm)
  | cSrli | cSrai | cSlli =>
    refine exec_eq_of_ite_none h ?_
    unfold exec
    exact aluX1_onNext fun _ => rfl
  | cMv | cAdd =>
    refine exec_eq_of_ite_none h ?_
    unfold exec
    exact aluX2_onNext
  | cJr =>
    refine exec_eq_of_ite_none h ?_
    unfold exec
    exact jumpReg_zero_onNext
  | _ => cases h

/-- Settles O9: the immediates agree, so the variants do; the shapes of the two differ in the width alone. -/
theorem compressedEquivalence : Obligations.CompressedEquivalence := by
  refine ⟨fun i j hi h => ?_, fun i j s h => ?_⟩
  · obtain ⟨hc, hf⟩ := index_of_fullWidth h
    rw [decodeBlock_encode hi, decodeBlock_encode (wellFormed_of_index_lt hf), isRvc_encode, isRvc_encode]
    exact ⟨variant_of_fullWidth h _ _, decide_eq_true hc, decide_eq_false (by omega)⟩
  · rw [takes_of_fullWidth h]
    exact exec_of_fullWidth h s

end Sys2Proof
end

section
/-! PROOFS. Compressed: the statements on the results of the compressed instructions (44_compressed.md). -/
namespace Sys2Proof.Machine

/-! ### Addresses, 20_memory.md R58 -/

/-- A compressed load or store adds its scaled offset, which is never negative. -/
theorem effAddr_setWidth_append_zero {n m : Nat} (a : Word) (x : BitVec n) (h : n + m < 32 := by decide) :
    effAddr a ((x ++ 0#m).setWidth 32) = a + BitVec.ofNat 64 (2 ^ m * x.toNat) :=
  congrArg (a + ·) (sext64_setWidth_append_zero x h)

/-! ### The statements -/

/-- Settles O56: each form outside its sentinels is its shape, and each immediate the number its field scales to. -/
theorem compressedAluResults : Obligations.CompressedAluResults := by
  intro s rd rs2 rd' rs2' u k hr hw hpc d e K puts
  have hd : d = xr' rd' := (xr'_eq_ofNat rd').symm
  have he : e = xr' rs2' := (xr'_eq_ofNat rs2').symm
  have hx0 : s.getX 0 = 0 := s.getX_zero
  have hK : sext64 (cImm k) = K := sext64_signExtend k (by decide)
  have zero {r : Reg} {v v' : Word} (hv : v = v') : aluX0 2 r v s = puts r v' :=
    aluX0_next.mpr ⟨.inr (hw r), hpc, by rw [hv]⟩
  have one {r r1 : Reg} {f : Word → Word} {v : Word} (hv : f (s.getX r1) = v) : aluX1 2 r r1 f s = puts r v :=
    aluX1_eq_next (by simp [Serves, hr, hpc]) (.inr (hw r)) hv
  have two {r r1 r2 : Reg} {f : Word → Word → Word} {v : Word} (hv : f (s.getX r1) (s.getX r2) = v) :
      aluX2 2 r r1 r2 f s = puts r v :=
    aluX2_eq_next (by simp [Serves, hr, hpc]) (.inr (hw r)) hv
  rw [hd, he]
  unfold exec
  refine ⟨fun hu => (if_neg hu).trans (one ?addi4spn), fun hk => (if_neg hk).trans (one ?addi16sp),
    fun h0 => ⟨(if_neg h0).trans (one ?addiw), (if_neg h0).trans (one ?li), (if_neg h0).trans (two ?mv),
      (if_neg h0).trans (two rfl)⟩,
    fun h0 hk => ⟨(if_neg (not_or_intro h0 hk)).trans (one ?addi),
      (if_neg hk).trans <| (if_neg h0).trans (zero ?lui), (if_neg (not_or_intro h0 hk)).trans (one rfl)⟩,
    fun hk => ⟨(if_neg hk).trans (one rfl), (if_neg hk).trans (one rfl)⟩,
    one ?andi, two rfl, two rfl, two rfl, two rfl, two rfl, two rfl⟩
  case addi4spn => exact congrArg (s.getX 2 + ·) (sext64_setWidth_append_zero u)
  case addi16sp => exact congrArg (s.getX 2 + ·) (sext64_signExtend_append_zero k)
  case addiw => exact congrArg (sextW <| s.getX rd + ·) hK
  case li => rw [hK, hx0]; exact BitVec.zero_add K
  case mv => rw [hx0]; exact BitVec.zero_add _
  case addi => exact congrArg (s.getX rd + ·) hK
  case lui => exact sext64_signExtend_append_zero k
  case andi => exact congrArg (s.getX (xr' rd') &&& ·) hK

/-- Settles O57: the base register and the scaled offset give the address of the load or the store. -/
theorem compressedMemoryResults : Obligations.CompressedMemoryResults := by
  intro s rd rs2 rd' rs1' u k hr hw hpc d base sp b word double puts
  have hd : d = xr' rd' := (xr'_eq_ofNat rd').symm
  have hbase : base = s.getX (xr' rs1') := congrArg s.getX (xr'_eq_ofNat rs1').symm
  have load {r r1 : Reg} {n : Nat} {imm : Word32} {ext : Word → Word} {a v : Word} (ha : effAddr (s.getX r1) imm = a)
      (hm : s.refuses (.readMem n a) = false) (hv : ext (loadLE s.mem a n) = v) : loadX 2 r r1 imm n ext s = puts r v :=
    loadX_eq_next (by simp [Serves, hr, hpc]) (.inr (hw r)) ha hm hv
  have hword (a : Word) : sext64 (low32 (loadLE s.mem a 4)) = (word a).signExtend 64 :=
    congrArg sext64 (low32_loadLE_four s a)
  have hdouble (a : Word) : loadLE s.mem a 8 = double a := loadLE_eq_word64From s a
  rw [hd, hbase]
  refine ⟨fun i n r a v hi h0 hm => ?_, fun i n a src hi hm => ?_⟩ <;>
    simp only [List.mem_cons, Prod.mk.injEq, List.not_mem_nil, or_false] at hi
  · obtain ⟨rfl, rfl, rfl, rfl, rfl⟩ | ⟨rfl, rfl, rfl, rfl, rfl⟩ | ⟨rfl, rfl, rfl, rfl, rfl⟩ |
      ⟨rfl, rfl, rfl, rfl, rfl⟩ := hi <;> unfold exec
    · exact load (effAddr_setWidth_append_zero _ u) hm (hword _)
    · exact load (effAddr_setWidth_append_zero _ u) hm (hdouble _)
    · exact (if_neg h0).trans (load (effAddr_setWidth_append_zero _ k) hm (hword _))
    · exact (if_neg h0).trans (load (effAddr_setWidth_append_zero _ k) hm (hdouble _))
  · have hs (r1 r2 : Reg) : Serves s [.readX r1, .readX r2, .writeMem n a, .writePc] := by simp [Serves, hr, hm, hpc]
    obtain ⟨rfl, rfl, rfl, rfl⟩ | ⟨rfl, rfl, rfl, rfl⟩ | ⟨rfl, rfl, rfl, rfl⟩ | ⟨rfl, rfl, rfl, rfl⟩ := hi <;>
      unfold exec
    iterate 2 · exact exists_mem_of_storeX (effAddr_setWidth_append_zero _ u) (hs _ _)
    iterate 2 · exact exists_mem_of_storeX (effAddr_setWidth_append_zero _ k) (hs _ _)

/-- Settles O58, by the shapes of a jump, a branch and a jump to a register. -/
theorem compressedJumpResults : Obligations.CompressedJumpResults := by
  intro s rs1 rs1' o p hr hw hrpc hwpc c
  have hc : c = s.getX (xr' rs1') := congrArg s.getX (xr'_eq_ofNat rs1').symm
  have hp : sext64 (cOffBranch p) = BitVec.ofInt 64 (2 * p.toInt) := sext64_signExtend_append_zero p
  have hx0 : s.getX 0 = 0 := s.getX_zero
  have htarget : jalrTarget (s.getX rs1) 0 = s.getX rs1 &&& ~~~1#64 := congrArg (· &&& _) (BitVec.add_zero _)
  rw [hc]
  unfold exec
  refine ⟨jump_next.mpr ⟨hrpc, .inl rfl, hwpc, ?j⟩, branch_next.mpr ⟨hr _, hr _, hrpc, hwpc, ?beqz⟩,
    branch_next.mpr ⟨hr _, hr _, hrpc, hwpc, ?bnez⟩,
    fun h0 => (if_neg h0).trans <| jumpReg_next.mpr ⟨hrpc, hr _, .inl rfl, hwpc, ?jr⟩,
    jumpReg_next.mpr ⟨hrpc, hr _, .inr (hw _), hwpc, ?jalr⟩⟩
  case j => exact congrArg₂ State.withPc (s.setX_zero _) (congrArg (s.pc + ·) (sext64_signExtend_append_zero o))
  case beqz => simp only [condEq, hx0, hp, beq_iff_eq, apply_ite (s.pc + ·)]
  case bnez => simp only [condNe, hx0, hp, bne_iff_ne, ite_not, apply_ite (s.pc + ·)]
  case jr => exact congrArg₂ State.withPc (s.setX_zero _) htarget
  case jalr => rw [htarget]

/-- Settles O59: the sentinel condition of each form holds of its operands. -/
theorem nopAndHints : Obligations.NopAndHints := by
  intro s hpc rd rs2 rd' k i hi
  have hint_eq : hint s = .next (s.withPc (s.pc + 2)) := hint_next.mpr ⟨hpc, rfl⟩
  obtain hi | hi := List.mem_append.mp hi
  · simp only [List.mem_cons, List.not_mem_nil, or_false] at hi
    obtain rfl | rfl | rfl | rfl | rfl | rfl | rfl | rfl | rfl | rfl := hi <;> unfold exec
    · exact hint_eq
    · exact (if_pos (.inl rfl)).trans hint_eq
    · exact (if_pos (.inr rfl)).trans hint_eq
    iterate 3 · exact (if_pos rfl).trans hint_eq
    · exact (if_pos (.inl rfl)).trans hint_eq
    · exact (if_pos (.inr rfl)).trans hint_eq
    iterate 2 · exact (if_pos rfl).trans hint_eq
  · split at hi
    next => cases hi
    next hk =>
      obtain rfl := List.mem_singleton.mp hi
      exact (if_neg hk).trans <| (if_pos rfl).trans hint_eq

end Sys2Proof.Machine
end

section
/-! PROOFS. Sentinels: which operand values select a sentinel (44_compressed.md R338, 45_sentinels.md R352 to R355). -/
namespace Sys2Proof

/-- Settles O8: each form of R338 tests its operands, and every other instruction has a variant of its own. -/
theorem sentinelForms : Obligations.SentinelForms := by
  intro i raw hi
  cases i with
  -- forms that test for RESERVED, C.LUI for HINT after it
  | cAddi4spn | cAddiw | cAddi16sp | cLui | cLwsp | cLdsp | cJr => simp [Instr.variant, ite_eq_iff]
  -- forms that test for HINT
  | cLi | cSrli | cSrai | cMv | cAdd => simp [Instr.variant, ite_eq_iff]
  | cAddi rd imm =>
    obtain rfl | hrd := eq_or_ne rd 0#5
    · have himm : imm ≠ 0#6 := by simpa [WellFormed] using hi
      simp [Instr.variant, himm]
    · simp [Instr.variant, hrd, ite_eq_iff]
  | cSlli rd sh =>
    have hform : (∃ r k, (r = 0 ∨ k = 0) ∧ Instr.cSlli rd sh = .cSlli r k) ↔ rd = 0 ∨ sh = 0 :=
      ⟨by rintro ⟨_, _, h, ⟨⟩⟩; exact h, fun h => ⟨rd, sh, h, rfl⟩⟩
    rw [hform]
    simp [Instr.variant, ite_eq_iff, or_iff_not_imp_left]
  | _ => simp [Instr.variant]

end Sys2Proof
end

section
/-! PROOFS. Breakpoints: which instructions end in DEBUG_TRAP and which words they are (44_compressed.md R333,
45_sentinels.md R353, 60_exceptions.md R362). -/
namespace Sys2Proof.Machine

/-- The instruction ends otherwise than in DEBUG_TRAP. -/
def NoTrap (o : Result) : Prop := o ≠ .fault .debugTrap

namespace NoTrap

variable {s : State} {w v : Word} {r rd rs1 rs2 rs3 : Reg} {n : Nat} {x y : Result}

/-! ### The operations: the one fault an operation raises itself is an EXECUTION_FAILURE, R363 -/

/-- `x` raises the failure `e` or goes on as `y`. -/
theorem of_fault_iff {e : FailKind} {p q : Prop} (h : x = .fault .debugTrap ↔
    p ∧ Fault.debugTrap = .executionFailure e ∨ q ∧ y = .fault .debugTrap) (hy : NoTrap y) : NoTrap x := by
  intro hx
  obtain ⟨-, he⟩ | ⟨-, ht⟩ := h.mp hx
  · cases he
  · exact hy ht

theorem of_setPc : NoTrap (setPc s v) := fun h => by cases (setPc_fault.mp h).2

theorem of_advance : NoTrap (advance s w) := of_setPc

theorem of_hint : NoTrap (hint s) := of_setPc

theorem of_decodeFailure : NoTrap (raise .decodeFailure) := fun h => by cases (raise_fault _).mp h

theorem of_readX {k : Word → Result} (h : ∀ v, NoTrap (k v)) : NoTrap (readX s r k) :=
  of_fault_iff readX_fault (h _)

theorem of_readF {k : Word → Result} (h : ∀ v, NoTrap (k v)) : NoTrap (readF s r k) :=
  of_fault_iff readF_fault (h _)

theorem of_readS {k : Word32 → Result} (h : ∀ v, NoTrap (k v)) : NoTrap (readS s r k) :=
  of_fault_iff readS_fault (h _)

theorem of_readPc {k : Word → Result} (h : ∀ v, NoTrap (k v)) : NoTrap (readPc s k) :=
  of_fault_iff readPc_fault (h _)

theorem of_writeX {k : State → Result} (h : ∀ s, NoTrap (k s)) : NoTrap (writeX s r v k) :=
  of_fault_iff writeX_fault (h _)

theorem of_writeF {k : State → Result} (h : ∀ s, NoTrap (k s)) : NoTrap (writeF s r v k) :=
  of_fault_iff writeF_fault (h _)

theorem of_writeS {v : Word32} {k : State → Result} (h : ∀ s, NoTrap (k s)) : NoTrap (writeS s r v k) := of_writeF h

theorem of_memRead {k : Word → Result} (h : ∀ v, NoTrap (k v)) : NoTrap (memRead s w n k) :=
  of_fault_iff memRead_fault (h _)

theorem of_memWrite {k : State → Result} (h : ∀ s, NoTrap (k s)) : NoTrap (memWrite s w n v k) :=
  of_fault_iff memWrite_fault (h _)

theorem of_requireAligned (h : NoTrap x) : NoTrap (requireAligned w n x) := of_fault_iff requireAligned_fault h

theorem of_withRm {c : BitVec 3} {k : RoundingMode → Result} (h : ∀ m, NoTrap (k m)) : NoTrap (withRm s c k) := by
  intro hx
  obtain ⟨-, he⟩ | ⟨m, -, ht⟩ := withRm_fault.mp hx
  · cases he
  · exact h m ht

theorem of_ite {c : Prop} [Decidable c] (hx : NoTrap x) (hy : NoTrap y) : NoTrap (if c then x else y) := by
  split
  · exact hx
  · exact hy

/-! ### The shapes -/

theorem of_aluX0 : NoTrap (aluX0 w rd v s) := of_writeX fun _ => of_advance

theorem of_aluX1 {f : Word → Word} : NoTrap (aluX1 w rd rs1 f s) := of_readX fun _ => of_aluX0

theorem of_aluX2 {f : Word → Word → Word} : NoTrap (aluX2 w rd rs1 rs2 f s) := of_readX fun _ => of_aluX1

theorem of_pcRel : NoTrap (pcRel w rd v s) := of_readPc fun _ => of_aluX0

theorem of_jump : NoTrap (jump w rd v s) := of_readPc fun _ => of_writeX fun _ => of_setPc

theorem of_jumpReg : NoTrap (jumpReg w rd rs1 v s) := of_readPc fun _ => of_readX fun _ => of_writeX fun _ => of_setPc

theorem of_branch {c : Word → Word → Bool} : NoTrap (branch w rs1 rs2 v c s) :=
  of_readX fun _ => of_readX fun _ => of_readPc fun _ => of_setPc

theorem of_loadX {imm : Word32} {ext : Word → Word} : NoTrap (loadX w rd rs1 imm n ext s) :=
  of_readX fun _ => of_memRead fun _ => of_aluX0

theorem of_storeX {imm : Word32} : NoTrap (storeX w rs1 rs2 imm n s) :=
  of_readX fun _ => of_readX fun _ => of_memWrite fun _ => of_advance

theorem of_loadReserved {m : Nat} : NoTrap (loadReserved m n rd rs1 s) :=
  of_readX fun _ => of_requireAligned <| of_memRead fun _ => of_aluX0

theorem of_storeConditional : NoTrap (storeConditional n rd rs1 rs2 s) :=
  of_readX fun _ => of_readX fun _ => of_requireAligned <| of_ite (of_memWrite fun _ => of_aluX0) of_aluX0

theorem of_amo {m : Nat} {f : BitVec m → BitVec m → BitVec m} : NoTrap (amo m n f rd rs1 rs2 s) :=
  of_readX fun _ => of_readX fun _ => of_requireAligned <| of_memRead fun _ => of_memWrite fun _ => of_aluX0

theorem of_fpu1 {f : Word32 → Word32} : NoTrap (fpu1 rd rs1 f s) := of_readS fun _ => of_writeS fun _ => of_advance

theorem of_fpu2 {f : Word32 → Word32 → Word32} : NoTrap (fpu2 rd rs1 rs2 f s) :=
  of_readS fun _ => of_readS fun _ => of_writeS fun _ => of_advance

theorem of_fpu3 {f : Word32 → Word32 → Word32 → Word32} : NoTrap (fpu3 rd rs1 rs2 rs3 f s) :=
  of_readS fun _ => of_readS fun _ => of_readS fun _ => of_writeS fun _ => of_advance

theorem of_fpuX1 {f : Word32 → Word} : NoTrap (fpuX1 rd rs1 f s) := of_readS fun _ => of_aluX0

theorem of_fpuX2 {f : Word32 → Word32 → Word} : NoTrap (fpuX2 rd rs1 rs2 f s) :=
  of_readS fun _ => of_readS fun _ => of_aluX0

theorem of_fpuOfX {f : Word → Word32} : NoTrap (fpuOfX rd rs1 f s) := of_readX fun _ => of_writeS fun _ => of_advance

end NoTrap

/-! ### All instructions -/

open NoTrap in
/-- Every instruction but the two breakpoints is made of operations that do not trap, or is RESERVED. -/
theorem breakpoint_of_debugTrap {i : Instr} {s : State} (h : exec i s = .fault .debugTrap) :
    i = .ebreak ∨ i = .cEbreak := by
  unfold exec at h
  cases i with
  | ebreak => exact .inl rfl
  | cEbreak => exact .inr rfl
  | lui => exact absurd h of_aluX0
  | auipc => exact absurd h of_pcRel
  | jal | cJ => exact absurd h of_jump
  | jalr | cJalr => exact absurd h of_jumpReg
  | beq | bne | blt | bge | bltu | bgeu | cBeqz | cBnez => exact absurd h of_branch
  | lb | lh | lw | ld | lbu | lhu | lwu | cLw | cLd => exact absurd h of_loadX
  | sb | sh | sw | sd | cSw | cSd | cSwsp | cSdsp => exact absurd h of_storeX
  | addi | slti | sltiu | xori | ori | andi | slli | srli | srai | addiw | slliw | srliw | sraiw | cAndi
    => exact absurd h of_aluX1
  | add | sub | sll | slt | sltu | xor | srl | sra | or | and | addw | subw | sllw | srlw | sraw | mul | mulh
  | mulhsu | mulhu | div | divu | rem | remu | mulw | divw | divuw | remw | remuw | cSub | cXor | cOr | cAnd | cSubw
  | cAddw => exact absurd h of_aluX2
  | lrW | lrD => exact absurd h of_loadReserved
  | scW | scD => exact absurd h of_storeConditional
  | amoswapW | amoaddW | amoxorW | amoandW | amoorW | amominW | amomaxW | amominuW | amomaxuW | amoswapD | amoaddD
  | amoxorD | amoandD | amoorD | amominD | amomaxD | amominuD | amomaxuD => exact absurd h of_amo
  | flw => exact absurd h (of_readX fun _ => of_memRead fun _ => of_writeS fun _ => of_advance)
  | fsw => exact absurd h (of_readX fun _ => of_readF fun _ => of_memWrite fun _ => of_advance)
  | fmaddS | fmsubS | fnmsubS | fnmaddS => exact absurd h (of_withRm fun _ => of_fpu3)
  | faddS | fsubS | fmulS | fdivS => exact absurd h (of_withRm fun _ => of_fpu2)
  | fsqrtS => exact absurd h (of_withRm fun _ => of_fpu1)
  | fsgnjS | fsgnjnS | fsgnjxS | fminS | fmaxS => exact absurd h of_fpu2
  | fcvtWS | fcvtWuS | fcvtLS | fcvtLuS => exact absurd h (of_withRm fun _ => of_fpuX1)
  | fmvXW => exact absurd h (of_readF fun _ => of_aluX0)
  | feqS | fltS | fleS => exact absurd h of_fpuX2
  | fclassS => exact absurd h of_fpuX1
  | fcvtSW | fcvtSWu | fcvtSL | fcvtSLu => exact absurd h (of_withRm fun _ => of_fpuOfX)
  | fmvWX => exact absurd h of_fpuOfX
  | cNop => exact absurd h of_hint
  | cAddi4spn | cAddiw | cAddi16sp => exact absurd h (of_ite of_decodeFailure of_aluX1)
  | cAddi | cLi | cSrli | cSrai | cSlli => exact absurd h (of_ite of_hint of_aluX1)
  | cLui => exact absurd h (of_ite of_decodeFailure (of_ite of_hint of_aluX0))
  | cLwsp | cLdsp => exact absurd h (of_ite of_decodeFailure of_loadX)
  | cJr => exact absurd h (of_ite of_decodeFailure of_jumpReg)
  | cMv | cAdd => exact absurd h (of_ite of_hint of_aluX2)

/-! ### Their words -/

/-- The words that decode to an instruction are those whose word of the scan is its encoding. -/
theorem decode_eq_ok_iff {w : Word32} {i : Instr} (hi : WellFormed i = true) :
    decode w = .ok i ↔ scanWord w = encode i := by
  constructor
  · exact fun h => (encodeOfDecode w i h).2.symm
  · intro h
    rw [← decode_scanWord, h, decode_encode hi]

theorem scanWord_eq_iff_of_full {w v : Word32} (hv : isRvc v = false) : scanWord w = v ↔ w = v := by
  constructor
  · intro h
    have hw : isRvc w = false := by rw [← isRvc_scanWord, h, hv]
    rwa [scanWord, hw, if_neg Bool.false_ne_true] at h
  · rintro rfl
    rw [scanWord, hv, if_neg Bool.false_ne_true]

theorem scanWord_eq_iff_of_compressed {w : Word32} {c : BitVec 16} (hc : isRvc (zext32 c) = true) :
    scanWord w = zext32 c ↔ w.extractLsb 15 0 = c := by
  constructor
  · intro h
    have hw : isRvc w = true := by rw [← isRvc_scanWord, h, hc]
    rw [scanWord_of_isRvc hw] at h
    have := congrArg (BitVec.setWidth 16) h
    rwa [zext32, BitVec.setWidth_setWidth_of_le _ (by decide), BitVec.setWidth_setWidth_of_le _ (by decide),
      BitVec.setWidth_eq, BitVec.setWidth_eq] at this
  · rintro rfl
    have hw : isRvc w = true := by rw [← isRvc_lowParcel]; exact hc
    exact scanWord_of_isRvc hw

/-- Settles O20: the breakpoints make no access, no other instruction traps, and the two words are those the encoder
gives. -/
theorem breakpointsTrap : Obligations.BreakpointsTrap := by
  have hcEbreak (w : Word32) : scanWord w = encode .cEbreak ↔ w.extractLsb 15 0 = 0x9002#16 :=
    scanWord_eq_iff_of_compressed (c := 0x9002) rfl
  refine ⟨fun s => ⟨rfl, rfl⟩, fun i s h => breakpoint_of_debugTrap h, fun w => ⟨?_, ?_⟩, ?_, fun w hw => ?_⟩
  · exact (decode_eq_ok_iff rfl).trans (scanWord_eq_iff_of_full rfl)
  · exact (decode_eq_ok_iff rfl).trans (hcEbreak w)
  · exact decodeBlock_encode (i := .ebreak) rfl
  · rw [← decodeBlock_scanWord, (hcEbreak w).mpr hw]
    exact decodeBlock_encode (i := .cEbreak) rfl

end Sys2Proof.Machine
end

section
/-! PROOFS. SentinelOutcomes: how a step on each sentinel ends and the word the sentinel carries (45_sentinels.md R350,
60_exceptions.md R361, R362). -/
namespace Sys2Proof.Machine

variable {raw : Word32} {s : State} {o o' : Result} {v v' : RISCVInst}

/-- What R350 says of a decoded variant of the word `raw` whose step in the state `s` ends in `o`: nothing of a variant
that is no sentinel. -/
def EndsAsSentinel (raw : Word32) (s : State) (o : Result) : RISCVInst → Prop
  | .invalid w | .reserved w => w = raw ∧ o = .fault .decodeFailure
  | .ebreak w => w = raw ∧ o = .fault .debugTrap
  | .hint w | .nop w => w = raw ∧ (s.refuses .writePc = false → o = .next (s.withPc (s.pc + 2)))
  | _ => True

namespace EndsAsSentinel

/-! ### The sentinels and the choice between a sentinel and an instruction -/

theorem of_reserved : EndsAsSentinel raw s (raise .decodeFailure) (.reserved raw) := ⟨rfl, rfl⟩

theorem of_hint : EndsAsSentinel raw s (hint s) (.hint raw) := ⟨rfl, fun hpc => hint_next.mpr ⟨hpc, rfl⟩⟩

theorem of_nop : EndsAsSentinel raw s (hint s) (.nop raw) := ⟨rfl, fun hpc => hint_next.mpr ⟨hpc, rfl⟩⟩

/-- The meaning and the variant test the same condition on the operands. -/
theorem of_ite {c : Prop} [Decidable c] (h : EndsAsSentinel raw s o v) (h' : EndsAsSentinel raw s o' v') :
    EndsAsSentinel raw s (if c then o else o') (if c then v else v') := by
  split
  · exact h
  · exact h'

/-! ### All instructions -/

/-- An instruction ends as its variant says: the forms of R338 choose the sentinel and its effect together. -/
theorem of_exec (i : Instr) (raw : Word32) (s : State) : EndsAsSentinel raw s (exec i s) (i.variant raw) := by
  cases i with
  | ebreak | cEbreak => exact ⟨rfl, rfl⟩
  | cNop => exact of_nop
  | cAddi4spn | cAddiw | cAddi16sp | cLwsp | cLdsp | cJr => exact of_ite of_reserved trivial
  | cAddi | cLi | cSrli | cSrai | cSlli | cMv | cAdd => exact of_ite of_hint trivial
  | cLui => exact of_ite of_reserved (of_ite of_hint trivial)
  | _ => exact trivial

end EndsAsSentinel

/-! ### The step -/

/-- A step ends as the block's output for the word it fetched says. -/
theorem endsAsSentinel_step {w : Word32} (hpc : PcEven s) (hf : fetchWord s = some w) :
    EndsAsSentinel (decodeBlock w).raw s (step s) (decodeBlock w).inst := by
  unfold decodeBlock
  cases hd : decode w with
  | error e =>
    rw [step_of_decode_error hpc hf hd]
    exact ⟨rfl, rfl⟩
  | ok i =>
    rw [step_of_decode_ok hpc hf hd]
    exact .of_exec i (scanWord w) s

/-- Settles O19: the DecodeResult at pc is the block's output for the word the step fetches. -/
theorem sentinelSteps : Obligations.SentinelSteps := by
  intro s d hpc hd
  obtain ⟨w, hf, rfl⟩ := Option.map_eq_some_iff.mp hd
  have h := endsAsSentinel_step hpc hf
  generalize (decodeBlock w).raw = raw, (decodeBlock w).inst = v at h ⊢
  cases v <;> exact h

end Sys2Proof.Machine
end

section
/-! PROOFS. Stopping: the causes an instruction can end other than OK for (60_exceptions.md R361 to R363): one lemma per
operation and per shape of Machine/Shapes.lean, put together once over all instructions. -/
namespace Sys2Proof.Machine

/-! ### The causes of an EXECUTION_FAILURE, R363 -/

/-- What an instruction asks of the facade but for the write of pc, and the checks it makes. -/
structure Demands where
  xSources : List Reg := []
  fSources : List Reg := []
  readsPc : Bool := false
  xDest : Option Reg := none
  fDest : Option Reg := none
  load : Option (Word × Nat) := none
  store : Option (Word × Nat) := none
  atomic : Option (Reg × Nat) := none
  roundingCode : Option (BitVec 3) := none

/-- The demands with the checks `a` and `c` whose accesses are those of the full-width instruction `j`. -/
def Demands.ofCore (s : State) (a : Option (Reg × Nat)) (c : Option (BitVec 3)) (j : Instr) : Demands where
  xSources := j.xSourcesF
  fSources := j.fSourcesF
  readsPc := j.readsPcF
  xDest := j.xDestF
  fDest := j.fDestF
  load := j.loadF s
  store := j.storeF s
  atomic := a
  roundingCode := c

/-- The demands of an instruction run from `s`. -/
def demands (s : State) (i : Instr) : Demands := .ofCore s i.atomic i.roundingCode i.core

/-- What R363 says has happened when an instruction with the demands `p` fails from `s` with a kind. -/
def Demands.Cause (p : Demands) (s : State) : FailKind → Prop
  | .regRead => (∃ r ∈ p.xSources, s.refuses (.readX r) = true) ∨ (∃ r ∈ p.fSources, s.refuses (.readF r) = true) ∨
      p.readsPc = true ∧ s.refuses .readPc = true
  | .regWrite => (∃ rd, p.xDest = some rd ∧ rd ≠ 0 ∧ s.refuses (.writeX rd) = true) ∨
      (∃ rd, p.fDest = some rd ∧ s.refuses (.writeF rd) = true)
  | .pcWrite => s.refuses .writePc = true
  | .memRead => ∃ n a, p.load = some (a, n) ∧ s.refuses (.readMem n a) = true
  | .memWrite => ∃ n a, p.store = some (a, n) ∧ s.refuses (.writeMem n a) = true
  | .misalignedAtomic => ∃ r n, p.atomic = some (r, n) ∧ (s.getX r).toNat % n ≠ 0
  | .invalidRoundingMode => ∃ c, p.roundingCode = some c ∧ resolveRm s.frmDyn c = none
  | .fetch => False

/-- The result is OK, DEBUG_TRAP, or a failure whose cause lies in the demands `p`. -/
def Demands.Allows (p : Demands) (s : State) : Result → Prop
  | .next _ | .fault .debugTrap => True
  | .fault (.executionFailure k) => p.Cause s k
  | .fault .decodeFailure | .refused _ => False

namespace Demands.Allows

variable {p : Demands} {s t : State} {w v : Word} {r rd rs1 rs2 rs3 : Reg} {n : Nat} {o : Result}
  {code : Option (BitVec 3)}

/-! ### The operations; after the first write the state is a `t` that the same facade serves -/

/-- Every operation fails on a condition of its own and else goes on. -/
theorem of_guard {c : Prop} [Decidable c] {k : FailKind} (hc : c → p.Cause s k) (ho : p.Allows s o) :
    p.Allows s (if c then fail k else o) := by
  split
  next h => exact hc h
  next => exact ho

theorem of_readX {k : Word → Result} (hk : p.Allows s (k (s.getX r))) (hr : r ∈ p.xSources := by simp) :
    p.Allows s (readX s r k) :=
  of_guard (fun h => .inl ⟨r, hr, h⟩) hk

theorem of_readF {k : Word → Result} (hk : p.Allows s (k (s.getF r))) (hr : r ∈ p.fSources := by simp) :
    p.Allows s (readF s r k) :=
  of_guard (fun h => .inr <| .inl ⟨r, hr, h⟩) hk

theorem of_readS {k : Word32 → Result} (hk : ∀ v, p.Allows s (k v)) (hr : r ∈ p.fSources := by simp) :
    p.Allows s (readS s r k) :=
  of_readF (hk _) hr

theorem of_readPc {k : Word → Result} (hk : p.Allows s (k s.pc)) (hp : p.readsPc = true := by rfl) :
    p.Allows s (readPc s k) :=
  of_guard (fun h => .inr <| .inr ⟨hp, h⟩) hk

theorem of_setPc (ht : t.refuses .writePc = s.refuses .writePc := by rfl) : p.Allows s (setPc t v) :=
  of_guard (fun h => ht.symm.trans h) trivial

theorem of_hint : p.Allows s (hint s) := of_setPc

theorem of_writeX_setPc {f : State → Word} (hd : p.xDest = some rd := by rfl)
    (ht : t.refuses = s.refuses := by rfl) : p.Allows s (writeX t rd v fun u => setPc u (f u)) :=
  of_guard (fun ⟨h0, h⟩ => .inl ⟨rd, hd, h0, ht ▸ h⟩) <| of_setPc <| by rw [State.setX_refuses, ht]

theorem of_writeS_advance {x : Word32} (hd : p.fDest = some rd := by rfl) :
    p.Allows s (writeS s rd x fun u => advance u 4) :=
  of_guard (fun h => .inr ⟨rd, hd, h⟩) of_setPc

theorem of_memRead {a : Word} {k : Word → Result} (hk : p.Allows s (k (loadLE s.mem a n)))
    (hl : p.load = some (a, n) := by rfl) : p.Allows s (memRead s a n k) :=
  of_guard (fun h => ⟨n, a, hl, h⟩) hk

theorem of_memWrite {a : Word} {k : State → Result} (hk : p.Allows s (k (s.withMem (storeLE s.mem a v n))))
    (hs : p.store = some (a, n) := by rfl) : p.Allows s (memWrite s a n v k) :=
  of_guard (fun h => ⟨n, a, hs, h⟩) hk

theorem of_requireAligned (ho : p.Allows s o) (ha : p.atomic = some (r, n) := by rfl) :
    p.Allows s (requireAligned (s.getX r) n o) :=
  of_guard (fun h => ⟨r, n, ha, h⟩) ho

theorem of_withRm {c : BitVec 3} {k : RoundingMode → Result} (hk : ∀ m, p.Allows s (k m))
    (hc : p.roundingCode = some c := by rfl) : p.Allows s (withRm s c k) := by
  unfold withRm
  split
  next h => exact ⟨c, hc, h⟩
  next m _ => exact hk m

/-! ### The shapes -/

theorem of_aluX0 : Allows { xDest := some rd } s (aluX0 w rd v s) := of_writeX_setPc

theorem of_aluX1 {g : Word → Word} : Allows { xSources := [rs1], xDest := some rd } s (aluX1 w rd rs1 g s) :=
  of_readX of_writeX_setPc

theorem of_aluX2 {g : Word → Word → Word} :
    Allows { xSources := [rs1, rs2], xDest := some rd } s (aluX2 w rd rs1 rs2 g s) :=
  of_readX <| of_readX of_writeX_setPc

theorem of_pcRel : Allows { readsPc := true, xDest := some rd } s (pcRel w rd v s) := of_readPc of_writeX_setPc

theorem of_jump : Allows { readsPc := true, xDest := some rd } s (jump w rd v s) := of_readPc of_writeX_setPc

theorem of_jumpReg : Allows { xSources := [rs1], readsPc := true, xDest := some rd } s (jumpReg w rd rs1 v s) :=
  of_readPc <| of_readX of_writeX_setPc

theorem of_branch {c : Word → Word → Bool} :
    Allows { xSources := [rs1, rs2], readsPc := true } s (branch w rs1 rs2 v c s) :=
  of_readX <| of_readX <| of_readPc of_setPc

/-- The load is stated at `imm'`: a compressed load keeps its immediate in another field than its full-width one. -/
theorem of_loadX {imm imm' : Word32} {ext : Word → Word} (hi : imm' = imm) :
    Allows { xSources := [rs1], xDest := some rd, load := some (effAddr (s.getX rs1) imm', n) } s
      (loadX w rd rs1 imm n ext s) := by
  subst hi
  exact of_readX <| of_memRead of_writeX_setPc

theorem of_storeX {imm imm' : Word32} (hi : imm' = imm) :
    Allows { xSources := [rs1, rs2], store := some (effAddr (s.getX rs1) imm', n) } s (storeX w rs1 rs2 imm n s) := by
  subst hi
  exact of_readX <| of_readX <| of_memWrite of_setPc

theorem of_loadReserved {m : Nat} :
    Allows { xSources := [rs1], xDest := some rd, load := some (s.getX rs1, n), atomic := some (rs1, n) } s
      (loadReserved m n rd rs1 s) :=
  of_readX <| of_requireAligned <| of_memRead of_writeX_setPc

theorem of_storeConditional :
    Allows { xSources := [rs1, rs2], xDest := some rd, atomic := some (rs1, n),
             store := if s.resv = some (s.getX rs1) then some (s.getX rs1, n) else none } s
      (storeConditional n rd rs1 rs2 s) := by
  refine of_readX <| of_readX <| of_requireAligned ?_
  split
  · exact of_memWrite of_writeX_setPc
  · exact of_writeX_setPc

theorem of_amo {m : Nat} {g : BitVec m → BitVec m → BitVec m} :
    Allows { xSources := [rs1, rs2], xDest := some rd, load := some (s.getX rs1, n), store := some (s.getX rs1, n),
             atomic := some (rs1, n) } s (amo m n g rd rs1 rs2 s) :=
  of_readX <| of_readX <| of_requireAligned <| of_memRead <| of_memWrite of_writeX_setPc

theorem of_fpu1 {g : Word32 → Word32} :
    Allows { fSources := [rs1], fDest := some rd, roundingCode := code } s (fpu1 rd rs1 g s) :=
  of_readS fun _ => of_writeS_advance

theorem of_fpu2 {g : Word32 → Word32 → Word32} :
    Allows { fSources := [rs1, rs2], fDest := some rd, roundingCode := code } s (fpu2 rd rs1 rs2 g s) :=
  of_readS fun _ => of_readS fun _ => of_writeS_advance

theorem of_fpu3 {g : Word32 → Word32 → Word32 → Word32} :
    Allows { fSources := [rs1, rs2, rs3], fDest := some rd, roundingCode := code } s (fpu3 rd rs1 rs2 rs3 g s) :=
  of_readS fun _ => of_readS fun _ => of_readS fun _ => of_writeS_advance

theorem of_fpuX1 {g : Word32 → Word} :
    Allows { fSources := [rs1], xDest := some rd, roundingCode := code } s (fpuX1 rd rs1 g s) :=
  of_readS fun _ => of_writeX_setPc

theorem of_fpuX2 {g : Word32 → Word32 → Word} :
    Allows { fSources := [rs1, rs2], xDest := some rd } s (fpuX2 rd rs1 rs2 g s) :=
  of_readS fun _ => of_readS fun _ => of_writeX_setPc

theorem of_fpuOfX {g : Word → Word32} :
    Allows { xSources := [rs1], fDest := some rd, roundingCode := code } s (fpuOfX rd rs1 g s) :=
  of_readX of_writeS_advance

theorem of_execFlw {imm : BitVec 12} :
    Allows { xSources := [rs1], fDest := some rd, load := some (effAddr (s.getX rs1) (immI imm), 4) } s
      (execFlw rd rs1 imm s) :=
  of_readX <| of_memRead of_writeS_advance

theorem of_execFsw {imm : BitVec 12} :
    Allows { xSources := [rs1], fSources := [rs2], store := some (effAddr (s.getX rs1) (immI imm), 4) } s
      (execFsw rs1 rs2 imm s) :=
  of_readX <| of_readF <| of_memWrite of_setPc

theorem of_execFmvXW : Allows { fSources := [rs1], xDest := some rd } s (execFmvXW rd rs1 s) :=
  of_readF of_writeX_setPc

end Demands.Allows

/-! ### All instructions -/

/-- The result `o` of `i` is DECODE_FAILURE and `i` is RESERVED (R361), or the demands of `i` allow it. -/
def EndsLawfully (i : Instr) (s : State) (o : Result) : Prop :=
  (∀ raw, i.variant raw = .reserved raw) ∧ o = .fault .decodeFailure ∨ (demands s i).Allows s o

namespace EndsLawfully

variable {i j : Instr} {s : State} {o o' : Result}

theorem of_reserved (hv : ∀ raw, i.variant raw = .reserved raw) : EndsLawfully i s (raise .decodeFailure) :=
  .inl ⟨hv, rfl⟩

theorem of_hint : EndsLawfully i s (hint s) := .inr .of_hint

/-- A compressed instruction with a sentinel form: on the condition `c` it is the sentinel, else its equivalent `j`. -/
theorem of_expansion {c : Prop} [Decidable c] (hi : i.fullWidth = if c then none else some j)
    (hs : c → EndsLawfully i s o) (hj : (Demands.ofCore s none none j).Allows s o')
    (hd : demands s i = .ofCore s none none i.core := by rfl) : EndsLawfully i s (if c then o else o') := by
  split
  next hc => exact hs hc
  next hc =>
    rw [if_neg hc] at hi
    rw [EndsLawfully, hd, Instr.core, hi]
    exact .inr hj

/-- C.LUI is RESERVED with immediate 0, and else a HINT with `rd` = 0 (R315). -/
theorem of_execCLui {rd : Reg} {imm : BitVec 6} : EndsLawfully (.cLui rd imm) s (execCLui rd imm s) := by
  rw [execCLui, ite_ite_eq_ite_or]
  refine of_expansion rfl (fun _ => ?_) .of_aluX0
  split
  next hc => exact of_reserved fun _ => if_pos hc
  next => exact of_hint

open Demands.Allows in
/-- Every instruction ends OK, in DEBUG_TRAP or for a cause of its own, or is RESERVED. -/
theorem of_exec (i : Instr) (s : State) : EndsLawfully i s (exec i s) := by
  unfold exec
  cases i with
  | ebreak | cEbreak => exact .inr trivial
  | lui => exact .inr of_aluX0
  | auipc => exact .inr of_pcRel
  | jal | cJ => exact .inr of_jump
  | jalr | cJalr => exact .inr of_jumpReg
  | beq | bne | blt | bge | bltu | bgeu | cBeqz | cBnez => exact .inr of_branch
  | lb | lh | lw | ld | lbu | lhu | lwu => exact .inr (of_loadX rfl)
  | cLw | cLd => exact .inr (of_loadX (immI_setWidth (by decide) _))
  | sb | sh | sw | sd => exact .inr (of_storeX rfl)
  | cSw | cSd | cSwsp | cSdsp => exact .inr (of_storeX (immI_setWidth (by decide) _))
  | addi | slti | sltiu | xori | ori | andi | slli | srli | srai | addiw | slliw | srliw | sraiw | cAndi
    => exact .inr of_aluX1
  | add | sub | sll | slt | sltu | xor | srl | sra | or | and | addw | subw | sllw | srlw | sraw | mul | mulh
  | mulhsu | mulhu | div | divu | rem | remu | mulw | divw | divuw | remw | remuw | cSub | cXor | cOr | cAnd | cSubw
  | cAddw => exact .inr of_aluX2
  | lrW | lrD => exact .inr of_loadReserved
  | scW | scD => exact .inr of_storeConditional
  | amoswapW | amoaddW | amoxorW | amoandW | amoorW | amominW | amomaxW | amominuW | amomaxuW | amoswapD | amoaddD
  | amoxorD | amoandD | amoorD | amominD | amomaxD | amominuD | amomaxuD => exact .inr of_amo
  | flw => exact .inr of_execFlw
  | fsw => exact .inr of_execFsw
  | fmaddS | fmsubS | fnmsubS | fnmaddS => exact .inr (of_withRm fun _ => of_fpu3)
  | faddS | fsubS | fmulS | fdivS => exact .inr (of_withRm fun _ => of_fpu2)
  | fsqrtS => exact .inr (of_withRm fun _ => of_fpu1)
  | fsgnjS | fsgnjnS | fsgnjxS | fminS | fmaxS => exact .inr of_fpu2
  | fcvtWS | fcvtWuS | fcvtLS | fcvtLuS => exact .inr (of_withRm fun _ => of_fpuX1)
  | fmvXW => exact .inr of_execFmvXW
  | feqS | fltS | fleS => exact .inr of_fpuX2
  | fclassS => exact .inr of_fpuX1
  | fcvtSW | fcvtSWu | fcvtSL | fcvtSLu => exact .inr (of_withRm fun _ => of_fpuOfX)
  | fmvWX => exact .inr of_fpuOfX
  | cNop => exact of_hint
  | cAddi4spn | cAddiw | cAddi16sp => exact of_expansion rfl (fun hc => of_reserved fun _ => if_pos hc) of_aluX1
  | cAddi | cLi | cSrli | cSrai | cSlli => exact of_expansion rfl (fun _ => of_hint) of_aluX1
  | cLui => exact of_execCLui
  | cLwsp | cLdsp =>
    exact of_expansion rfl (fun hc => of_reserved fun _ => if_pos hc) (of_loadX (immI_setWidth (by decide) _))
  | cJr => exact of_expansion rfl (fun hc => of_reserved fun _ => if_pos hc) of_jumpReg
  | cMv | cAdd => exact of_expansion rfl (fun _ => of_hint) of_aluX2

end EndsLawfully

/-- Settles O18: the causes are those of `Demands.Cause`; of DEBUG_TRAP `breakpoint_of_debugTrap` says whose it is. -/
theorem causesOfStopping : Obligations.CausesOfStopping := by
  intro i s
  have htrap := breakpoint_of_debugTrap (i := i) (s := s)
  obtain ⟨hv, he⟩ | h := EndsLawfully.of_exec i s
  · rw [he]
    exact hv
  · generalize exec i s = o at h htrap ⊢
    match o, h with
    | .next _, _ => trivial
    | .fault .debugTrap, _ => exact htrap rfl
    | .fault (.executionFailure k), h => cases k <;> exact h

end Sys2Proof.Machine
end

section
/-! PROOFS. Priority: the order in which an instruction meets the conditions it can fail on (60_exceptions.md R367). -/
namespace Sys2Proof.Machine

variable {s : State} {P : Result → Prop} {o : Result} {e : FailKind} {c d : Prop} [Decidable c] [Decidable d]

/-! ### One condition before the others -/

/-- On the condition `c` the result is the failure `e`; else `P` holds of it. -/
def FailsFirst (c : Prop) [Decidable c] (e : FailKind) (P : Result → Prop) (o : Result) : Prop :=
  if c then o = .fault (.executionFailure e) else P o

/-- An operation that fails on `d` and else goes on. -/
theorem FailsFirst.of_guard (ho : P o) (h : c ↔ d := by rfl) : FailsFirst c e P (if d then fail e else o) := by
  unfold FailsFirst
  split
  next hc => exact if_pos (h.mp hc)
  next hc => rwa [if_neg (mt h.mpr hc)]

/-- Two operations in a row that fail with one kind. -/
theorem FailsFirst.of_guards (ho : P o) :
    FailsFirst (c ∨ d) e P (if c then fail e else if d then fail e else o) := by
  rw [← ite_or]
  exact of_guard ho

/-! ### The AMOs, 42_atomics.md R221 -/

/-- R367 for an AMO of `n` bytes: the conditions in the order in which they are met. -/
def AmoFailsInOrder (s : State) (n : Nat) (rd rs1 rs2 : Reg) : Result → Prop :=
  FailsFirst (s.refuses (.readX rs1) ∨ s.refuses (.readX rs2)) .regRead <|
  FailsFirst ((s.getX rs1).toNat % n ≠ 0) .misalignedAtomic <|
  FailsFirst (s.refuses (.readMem n (s.getX rs1))) .memRead <|
  FailsFirst (s.refuses (.writeMem n (s.getX rs1))) .memWrite <|
  FailsFirst (rd ≠ 0 ∧ s.refuses (.writeX rd)) .regWrite <|
  FailsFirst (s.refuses .writePc) .pcWrite fun o => ∃ t, o = .next t

open FailsFirst in
theorem amoFailsInOrder_amo {m n : Nat} {g : BitVec m → BitVec m → BitVec m} {rd rs1 rs2 : Reg} :
    AmoFailsInOrder s n rd rs1 rs2 (amo m n g rd rs1 rs2 s) :=
  of_guards <| of_guard <| of_guard <| of_guard <| of_guard <|
    of_guard ⟨_, rfl⟩ (by rw [State.setX_refuses, State.withMem_refuses])

/-! ### The rounding mode, 43_float.md R251 -/

/-- The code is looked at before any access. -/
theorem exec_of_resolveRm_none {i : Instr} {code : BitVec 3} (hi : i.roundingCode = some code)
    (hc : resolveRm s.frmDyn code = none) : exec i s = .fault (.executionFailure .invalidRoundingMode) := by
  have hrm (k : RoundingMode → Result) : withRm s code k = .fault (.executionFailure .invalidRoundingMode) :=
    withRm_fault.mpr <| .inl ⟨hc, rfl⟩
  cases i with
  | fmaddS | fmsubS | fnmsubS | fnmaddS | faddS | fsubS | fmulS | fdivS | fsqrtS | fcvtWS | fcvtWuS | fcvtSW | fcvtSWu
  | fcvtLS | fcvtLuS | fcvtSL | fcvtSLu => cases hi; exact hrm _
  | _ => cases hi

/-- Settles O21: each AMO is the shape `amo` at its size, and each instruction that rounds asks its mode first. -/
theorem failurePriority : Obligations.FailurePriority := by
  intro s rd rs1 rs2 q a amoOutcome
  refine ⟨fun i hi => ?word, fun i hi => ?doubleword, fun i c => exec_of_resolveRm_none⟩
  all_goals
    simp only [List.mem_cons, List.not_mem_nil, or_false] at hi
    obtain rfl | rfl | rfl | rfl | rfl | rfl | rfl | rfl | rfl := hi <;> exact amoFailsInOrder_amo

end Sys2Proof.Machine
end

section
/-! PROOFS. Launch: the launch state and the host's moves between two steps (70_reset_and_hazards.md R391, R398). -/
namespace Sys2Proof.Machine

/-! ### The launch state, 70_reset_and_hazards.md R393 -/

/-- Nothing is listed at reset, and 0x1000 is even. -/
theorem inv_reset : Inv State.reset where
  memWf := Memory.wf_nil
  pcEven := show EvenWord Config.resetPc by decide

/-- Settles O13: the invariant holds at reset, and no reservation is held there. -/
theorem resetIsLaunch : Obligations.ResetIsLaunch :=
  ⟨{ inv_reset with resvNone := rfl }, rfl, State.reset.getX_zero⟩

/-! ### The moves of the host, 70_reset_and_hazards.md R398 -/

/-- The frame of a write of `x`, as one equation of states. -/
theorem State.setX_eq_with_x (s : State) (r : Reg) (v : Word) : s.setX r v = { s with x := (s.setX r v).x } := by
  unfold State.setX
  split <;> rfl

/-- A byte write changes its own byte of the machine's memory and no other: 64-bit addresses do not alias. -/
theorem State.byteAt_withMem_write (s : State) (a b : Word) (y : Byte) :
    (s.withMem (Memory.write s.mem a.toNat y)).byteAt b = if b = a then y else s.byteAt b := by
  rw [State.withMem_byteAt, Memory.read_write]
  simp only [BitVec.toNat_inj, State.byteAt]

/-- Settles O17: each move is one write of the state, whose value and frame the laws of the state give. -/
theorem hostMoveEffects : Obligations.HostMoveEffects := by
  intro s r r' v a b t y
  refine ⟨?writeX, s.setX_eq_with_x r v, s.getF_setF r r' v, rfl, s.byteAt_withMem_write a b y,
    rfl, rfl, rfl, ?memWf⟩
  case writeX =>
    obtain ⟨-, -, -, hx⟩ := registerZero s r r' v .next
    exact hx
  case memWf => exact Memory.wf_write s.mem a.toNat y a.isLt

end Sys2Proof.Machine
end
